-- ==== Sys2Proof/Word.lean ====
section
/-!
DEFINITION. The word types of the PFE: every value is unsigned, a byte, a byte buffer or the 16-bit CRC
(spec/00_scope.md R9, spec/10_state.md R34).
-/

namespace Sys2Proof

/-- `UInt8` of the spec: an unsigned 8-bit value; bit 0 is the least significant (R9). -/
abbrev Byte := BitVec 8

/-- `UInt16` of the spec: the checksum and the CRC accumulator (R9, R27). -/
abbrev Word16 := BitVec 16

/-- A 7-bit register address, 0x00 to 0x7F (R50). -/
abbrev Addr := BitVec 7

/-- A 32-byte buffer: PAYLOAD, FRAME and RXBUF (R25, R26, R29); index 0 is first on the air (R55). -/
abbrev Buf := Vector Byte 32

end Sys2Proof
end

