-- ==== Sys2Proof/Config.lean ====
section
/-!
DEFINITION. What an implementation of the PFE fixes (the configuration record `Cfg` of spec/00_scope.md R7, in the
record form and in the ROM form of spec/30_encoding.md R76 to R78) and the values the spec leaves open, as opaque
constants.
-/

namespace Sys2Proof

/-- The four frame kinds (R17, R74). -/
inductive Kind where
  | cmd
  | grp
  | dup
  | fav
  deriving DecidableEq, Repr

/-- Where an overridden template byte comes from (R76). -/
inductive Selector where
  /-- ID(j): identity byte j. -/
  | ident (j : Fin 4)
  /-- NONCE: the first draw r0. -/
  | nonce
  /-- RAND: the second draw r1. -/
  | rand
  /-- ACTION: the on-air code of the action. -/
  | action
  /-- CHAN_HIGH: the number of the highest selected channel. -/
  | chanHigh
  /-- CONST(v): the fixed byte v. -/
  | const (v : Byte)
  deriving DecidableEq, Repr

/-- An override entry: an offset in template coordinates and the selector of the byte written there (R77). -/
structure Override where
  offset : Nat
  sel    : Selector
  deriving DecidableEq, Repr

/-- A kind configuration KCFG[k] (R78). -/
structure KindCfg where
  template  : List Byte
  overrides : List Override
  deriving DecidableEq, Repr

/-- L_k, the length of the kind's template (R78). -/
def KindCfg.length (k : KindCfg) : Nat := k.template.length

/-- The configuration record `Cfg` (R7). `kcfg` gives the four kind configurations by kind. -/
structure Cfg where
  preamble   : Byte
  actionCode : Vector Byte 10
  cmd        : KindCfg
  grp        : KindCfg
  dup        : KindCfg
  fav        : KindCfg
  /-- CH_INS, the channel-list insertion offset of the Command kind, in template coordinates (R78). -/
  chIns      : Nat
  capLen     : Nat
  capOffA    : Nat
  capOffB    : Nat
  deriving DecidableEq, Repr

/-- KCFG[k] (R7, R78). -/
def Cfg.kcfg (c : Cfg) : Kind → KindCfg
  | .cmd => c.cmd
  | .grp => c.grp
  | .dup => c.dup
  | .fav => c.fav

/-- A kind configuration as the ROM holds it: each override entry is one 24-bit word (R77). -/
structure KindRom where
  template  : List Byte
  overrides : List (BitVec 24)
  deriving DecidableEq, Repr, Inhabited

/-- The read-only configuration ROM (R7): the record `Cfg` before its override words are decoded. -/
structure Rom where
  preamble   : Byte
  actionCode : Vector Byte 10
  cmd        : KindRom
  grp        : KindRom
  dup        : KindRom
  fav        : KindRom
  chIns      : Nat
  capLen     : Nat
  capOffA    : Nat
  capOffB    : Nat
  deriving DecidableEq, Repr, Inhabited

namespace Config

/-- The contents of the configuration ROM of this block. The spec gives none of its values (R7, D6): a free value,
notes/assumptions/4.md. -/
opaque rom : Rom

/-- Draw number `n` of the random input, where the host environment has listed no byte for it: any byte (R123, I4). A
free value, notes/assumptions/3.md. -/
opaque freeDraw : Nat → Byte

/-- PFE_BASE: where the integrating platform places the block (R62, D2). A free value, notes/assumptions/17.md. -/
opaque pfeBase : Nat

end Config

end Sys2Proof
end

