-- ==== Sys2Proof/Machine/Bus.lean ====
section
/-!
DEFINITION. The host's bus: the register map (spec/20_memory.md R51), the transactions of a run (spec/70_reset_and_hazards.md
R219) and their 16-bit listing words (spec/30_encoding.md R82).
-/

namespace Sys2Proof.Machine

/-- A location of the register map (R51). -/
inductive Loc where
  | cmd
  | status
  | action
  | mask
  | ident (j : Fin 4)
  | plen
  | crcHi
  | crcLo
  | crcIn
  | lstat
  | rxlen
  | syncPos
  | lastNonce
  | lastRand
  | lid (j : Fin 4)
  /-- 0x15 to 0x1F. -/
  | reserved (j : Fin 11)
  | payload (i : Fin 32)
  | frame (i : Fin 32)
  | rxbuf (i : Fin 32)
  deriving DecidableEq, Repr

/-- The rows 0x00 to 0x14 of the register map, in address order (R51). -/
def registerRows : Vector Loc 21 :=
  #v[.cmd, .status, .action, .mask, .ident 0, .ident 1, .ident 2, .ident 3, .plen, .crcHi, .crcLo, .crcIn, .lstat,
    .rxlen, .syncPos, .lastNonce, .lastRand, .lid 0, .lid 1, .lid 2, .lid 3]

/-- The location an address names (R51); the map is the whole address space (R62). -/
def locOf (a : Addr) : Loc :=
  if h : a.toNat < 0x15 then registerRows[a.toNat]
  else if h : a.toNat < 0x20 then .reserved ⟨a.toNat - 0x15, by omega⟩
  else if h : a.toNat < 0x40 then .payload ⟨a.toNat - 0x20, by omega⟩
  else if h : a.toNat < 0x60 then .frame ⟨a.toNat - 0x40, by omega⟩
  else .rxbuf ⟨a.toNat - 0x60, by omega⟩

/-- The address of a location (R51). -/
def addrOf : Loc → Addr
  | .cmd => 0x00
  | .status => 0x01
  | .action => 0x02
  | .mask => 0x03
  | .ident j => BitVec.ofNat 7 (0x04 + j.val)
  | .plen => 0x08
  | .crcHi => 0x09
  | .crcLo => 0x0A
  | .crcIn => 0x0B
  | .lstat => 0x0C
  | .rxlen => 0x0D
  | .syncPos => 0x0E
  | .lastNonce => 0x0F
  | .lastRand => 0x10
  | .lid j => BitVec.ofNat 7 (0x11 + j.val)
  | .reserved j => BitVec.ofNat 7 (0x15 + j.val)
  | .payload i => BitVec.ofNat 7 (0x20 + i.val)
  | .frame i => BitVec.ofNat 7 (0x40 + i.val)
  | .rxbuf i => BitVec.ofNat 7 (0x60 + i.val)

/-- The RW locations of R51: a bus write stores the byte and a bus read returns it. -/
def Loc.isRW : Loc → Bool
  | .action | .mask | .ident _ | .plen | .crcHi | .crcLo | .crcIn | .rxlen | .payload _ | .rxbuf _ => true
  | .cmd | .status | .lstat | .syncPos | .lastNonce | .lastRand | .lid _ | .reserved _ | .frame _ => false

/-- What the host does to the block in one step: a one-byte bus read, a one-byte bus write (R11, R59), or the reset
input, taken between two transactions (R210). -/
inductive BusOp where
  | read (a : Addr)
  | write (a : Addr) (v : Byte)
  | reset
  deriving DecidableEq, Repr

/-- The 16-bit listing word of a transaction: bit 15 is 1 for a write, bits 14:8 the address, bits 7:0 the data, 0x00
for a read (R82). Reset is no bus transaction and has no word. -/
def BusOp.toWord : BusOp → Option Word16
  | .read a => some (0#1 ++ a ++ 0#8)
  | .write a v => some (1#1 ++ a ++ v)
  | .reset => none

/-- The transaction of a listing word. A read's data bits are 0x00 (R82), so a read word with other data bits is the
word of no transaction (notes/assumptions/24.md). -/
def BusOp.ofWord (w : Word16) : Option BusOp :=
  let a : Addr := w.extractLsb' 8 7
  let v : Byte := w.extractLsb' 0 8
  if w.msb then some (.write a v) else if v = 0x00 then some (.read a) else none

/-- The address of a location in the platform's own address map (R62, D2). -/
def platformAddress (a : Addr) : Nat := Config.pfeBase + a.toNat

end Sys2Proof.Machine
end

