-- ==== Sys2Proof/Syntax.lean ====
section
/-!
DEFINITION. The commands of the PFE, one constructor per row of spec/opcode_table.json (spec/30_encoding.md R71). A
command is one byte with no fields: every operand is a register read when the command executes (R70, R84).
-/

namespace Sys2Proof

/-- The eleven commands (R71). -/
inductive Instr where
  /-- NOP, 0x00 (R180). -/
  | nop
  /-- ENCODE, 0x01 (R135). -/
  | encode
  /-- BUILD, 0x02 (R132). -/
  | build
  /-- FINALIZE, 0x03 (R134). -/
  | finalize
  /-- CRC_INIT, 0x10 (R103). -/
  | crcInit
  /-- CRC_UPDATE, 0x11 (R104). -/
  | crcUpdate
  /-- CRC_PAYLOAD, 0x12 (R105). -/
  | crcPayload
  /-- LEARN_START, 0x20 (R163). -/
  | learnStart
  /-- LEARN_CANCEL, 0x21 (R164). -/
  | learnCancel
  /-- SCAN, 0x22 (R165). -/
  | scan
  /-- CAPTURE, 0x23 (R166). -/
  | capture
  deriving DecidableEq, Repr

end Sys2Proof
end

