-- ==== Sys2Proof/Decode.lean ====
section
/-!
DEFINITION. Decoding and encoding: the command byte (spec/30_encoding.md R70 to R72) and the 24-bit override word of the
configuration ROM (R76, R77). Decoding of a command is total on all 256 bytes; a reserved opcode is rejected by name.
-/

namespace Sys2Proof

/-- What a command byte selects: a command of R71, or the illegal command with the reserved opcode (R72). -/
inductive Decoded where
  | command (i : Instr)
  | illegal (opcode : Byte)
  deriving DecidableEq, Repr

/-- The opcode map of R71. -/
def encode : Instr → Byte
  | .nop => 0x00
  | .encode => 0x01
  | .build => 0x02
  | .finalize => 0x03
  | .crcInit => 0x10
  | .crcUpdate => 0x11
  | .crcPayload => 0x12
  | .learnStart => 0x20
  | .learnCancel => 0x21
  | .scan => 0x22
  | .capture => 0x23

/-- Decode of a command byte, total: an opcode of R71 selects its command and every other value is the illegal command
(R71, R72). -/
def decode (opcode : Byte) : Decoded :=
  match opcode.toNat with
  | 0x00 => .command .nop
  | 0x01 => .command .encode
  | 0x02 => .command .build
  | 0x03 => .command .finalize
  | 0x10 => .command .crcInit
  | 0x11 => .command .crcUpdate
  | 0x12 => .command .crcPayload
  | 0x20 => .command .learnStart
  | 0x21 => .command .learnCancel
  | 0x22 => .command .scan
  | 0x23 => .command .capture
  | _ => .illegal opcode

/-- The command of a decoded byte, if it is one. -/
def Decoded.command? : Decoded → Option Instr
  | .command i => some i
  | .illegal _ => none

/-- The command byte of an instruction whose low `nbits` bits are those of `w` and whose other bits are 0: a command is
one byte (R84), so that byte is all the block receives. -/
def tableByte (nbits w : Nat) : Byte := BitVec.ofNat 8 (w % 2 ^ nbits)

/-- The instruction the decoder reads from an opcode-table word. -/
def decodeTableWord (nbits w : Nat) : Option Instr := (decode (tableByte nbits w)).command?

/-! ### The override word of the configuration ROM -/

/-- The ROM code of a selector (R76). -/
def Selector.code : Selector → Byte
  | .ident j => BitVec.ofNat 8 j.val
  | .nonce => 0x04
  | .rand => 0x05
  | .action => 0x06
  | .chanHigh => 0x07
  | .const _ => 0x08

/-- The value field of the ROM word: v for CONST(v), 0x00 for every other selector (R77). -/
def Selector.value : Selector → Byte
  | .const v => v
  | _ => 0x00

/-- The selector with a code and a value field: codes 0x09 to 0xFF are not selectors (R76), and a value other than 0x00
stands only beside CONST (WF4 of R79). -/
def Selector.ofFields (code value : Byte) : Option Selector :=
  if code = 0x08 then some (.const value)
  else if value ≠ 0x00 then none
  else
    match code.toNat with
    | 0x00 => some (.ident 0)
    | 0x01 => some (.ident 1)
    | 0x02 => some (.ident 2)
    | 0x03 => some (.ident 3)
    | 0x04 => some .nonce
    | 0x05 => some .rand
    | 0x06 => some .action
    | 0x07 => some .chanHigh
    | _ => none

/-- The override entry of a ROM word: offset in 23:16, selector code in 15:8, value in 7:0 (R77). -/
def Override.ofWord (w : BitVec 24) : Option Override :=
  (Selector.ofFields (w.extractLsb' 8 8) (w.extractLsb' 0 8)).map fun sel =>
    { offset := (w.extractLsb' 16 8).toNat, sel := sel }

/-- The ROM word of an override entry whose offset is a byte (R77). -/
def Override.toWord (e : Override) : BitVec 24 :=
  BitVec.ofNat 8 e.offset ++ e.sel.code ++ e.sel.value

end Sys2Proof
end

