-- ==== Sys2Proof/Machine/Cfg.lean ====
section
/-!
DEFINITION. The configuration checks WF1 to WF10 of spec/30_encoding.md R79, a configuration that passed them, and how
one is loaded from the ROM. An ill-formed configuration is refused: it cannot be made into a `WfCfg`, which is what a
machine state holds (R40, R212, I11).
-/

namespace Sys2Proof

/-! ### The checks of R79 -/

/-- WF1 (lengths): 1 <= L_CMD <= 24 and 1 <= L_k <= 30 for the other kinds. -/
def Cfg.wf1 (c : Cfg) : Bool :=
  (1 ≤ c.cmd.length && c.cmd.length ≤ 24) && (1 ≤ c.grp.length && c.grp.length ≤ 30) &&
    (1 ≤ c.dup.length && c.dup.length ≤ 30) && (1 ≤ c.fav.length && c.fav.length ≤ 30)

/-- Every override offset of a kind is below its template's length. -/
def KindCfg.offsetsInRange (k : KindCfg) : Bool := k.overrides.all fun e => e.offset < k.length

/-- WF2 (offsets in range). -/
def Cfg.wf2 (c : Cfg) : Bool :=
  c.cmd.offsetsInRange && c.grp.offsetsInRange && c.dup.offsetsInRange && c.fav.offsetsInRange

/-- No two entries of a kind share an offset. -/
def KindCfg.offsetsDistinct (k : KindCfg) : Bool := decide (k.overrides.map (·.offset)).Nodup

/-- WF3 (offsets distinct). -/
def Cfg.wf3 (c : Cfg) : Bool :=
  c.cmd.offsetsDistinct && c.grp.offsetsDistinct && c.dup.offsetsDistinct && c.fav.offsetsDistinct

/-- WF4 (selector codes), on the ROM's words: each is an entry's word, with a code of 0x00 to 0x08 and value 0x00 unless
the code is 0x08. -/
def KindRom.wordsOk (k : KindRom) : Bool := k.overrides.all fun w => (Override.ofWord w).isSome

/-- WF4 (selector codes) of the whole ROM. -/
def Rom.wf4 (r : Rom) : Bool := r.cmd.wordsOk && r.grp.wordsOk && r.dup.wordsOk && r.fav.wordsOk

/-- WF5 (Command region): 1 <= CH_INS <= L_CMD, and no Command override stands on the count byte CH_INS - 1. -/
def Cfg.wf5 (c : Cfg) : Bool :=
  (1 ≤ c.chIns && c.chIns ≤ c.cmd.length) && c.cmd.overrides.all fun e => e.offset ≠ c.chIns - 1

/-- How many entries of a kind have a selector of a given sort. -/
def KindCfg.count (k : KindCfg) (p : Selector → Bool) : Nat := k.overrides.countP fun e => p e.sel

def Selector.isIdent : Selector → Bool
  | .ident _ => true
  | _ => false

def Selector.isNonce : Selector → Bool
  | .nonce => true
  | _ => false

def Selector.isRand : Selector → Bool
  | .rand => true
  | _ => false

def Selector.isAction : Selector → Bool
  | .action => true
  | _ => false

def Selector.isChanHigh : Selector → Bool
  | .chanHigh => true
  | _ => false

def Selector.isConst : Selector → Bool
  | .const _ => true
  | _ => false

/-- The numbers of ID, NONCE, RAND, ACTION, CHAN_HIGH and CONST entries of a kind, in this order. -/
def KindCfg.census (k : KindCfg) : List Nat :=
  [k.count Selector.isIdent, k.count Selector.isNonce, k.count Selector.isRand, k.count Selector.isAction,
    k.count Selector.isChanHigh, k.count Selector.isConst]

/-- WF6 (Command fields): exactly 4 ID, 1 NONCE, 1 RAND, 1 ACTION, and no CHAN_HIGH or CONST. -/
def Cfg.wf6 (c : Cfg) : Bool := c.cmd.census == [4, 1, 1, 1, 0, 0]

/-- WF7 (Group fields): exactly 2 ID, 1 NONCE, 1 CHAN_HIGH, 1 ACTION, and no RAND or CONST. -/
def Cfg.wf7 (c : Cfg) : Bool := c.grp.census == [2, 1, 0, 1, 1, 0]

/-- WF8 (Duplicate fields): exactly 1 NONCE, 8 CONST, 4 ID, and no RAND, ACTION or CHAN_HIGH. -/
def Cfg.wf8 (c : Cfg) : Bool := c.dup.census == [4, 1, 0, 0, 0, 8]

/-- WF10 (capture): CAP_LEN <= 32 and both capture offsets are below CAP_LEN. WF9 asks nothing of the Store-favorite
kind beyond WF1 to WF4. -/
def Cfg.wf10 (c : Cfg) : Bool := c.capLen ≤ 32 && c.capOffA < c.capLen && c.capOffB < c.capLen

/-- wf(Cfg), the conjunction of the checks of R79 (WF4 has passed already where the ROM's words were decoded). -/
def Cfg.wf (c : Cfg) : Bool :=
  c.wf1 && c.wf2 && c.wf3 && c.wf5 && c.wf6 && c.wf7 && c.wf8 && c.wf10

/-! ### A configuration that passed the checks -/

/-- A configuration together with the proof that wf(Cfg) holds: the only configuration a machine state can hold. -/
structure WfCfg where
  toCfg : Cfg
  ok    : toCfg.wf = true
  deriving DecidableEq, Repr

/-! ### The ROM -/

/-- The override entries of a kind's ROM words. -/
def KindRom.decode (k : KindRom) : KindCfg :=
  { template := k.template, overrides := k.overrides.filterMap Override.ofWord }

/-- The record a ROM whose words pass WF4 stands for (R7, R77). -/
def Rom.decode (r : Rom) : Cfg :=
  { preamble := r.preamble, actionCode := r.actionCode,
    cmd := r.cmd.decode, grp := r.grp.decode, dup := r.dup.decode, fav := r.fav.decode,
    chIns := r.chIns, capLen := r.capLen, capOffA := r.capOffA, capOffB := r.capOffB }

/-- A kind configuration as ROM words. -/
def KindCfg.toRom (k : KindCfg) : KindRom :=
  { template := k.template, overrides := k.overrides.map Override.toWord }

/-- The ROM that holds a configuration (R77). -/
def Cfg.toRom (c : Cfg) : Rom :=
  { preamble := c.preamble, actionCode := c.actionCode,
    cmd := c.cmd.toRom, grp := c.grp.toRom, dup := c.dup.toRom, fav := c.fav.toRom,
    chIns := c.chIns, capLen := c.capLen, capOffA := c.capOffA, capOffB := c.capOffB }

/-- The named check an ill-formed configuration fails (R79). -/
inductive CfgFlaw where
  | wf1
  | wf2
  | wf3
  | wf4
  | wf5
  | wf6
  | wf7
  | wf8
  | wf10
  deriving DecidableEq, Repr

/-- The check of R79 that a ROM fails, if any: the words first (a record exists only where they decode), then the others
in their order. -/
def Rom.flaw? (r : Rom) : Option CfgFlaw :=
  let c := r.decode
  if r.wf4 = false then some .wf4
  else if c.wf1 = false then some .wf1
  else if c.wf2 = false then some .wf2
  else if c.wf3 = false then some .wf3
  else if c.wf5 = false then some .wf5
  else if c.wf6 = false then some .wf6
  else if c.wf7 = false then some .wf7
  else if c.wf8 = false then some .wf8
  else if c.wf10 = false then some .wf10
  else none

/-- The configuration a ROM is built with, or nothing: a model refuses an ill-formed Cfg (R79, R212, I11). -/
def Rom.load (r : Rom) : Option WfCfg :=
  if r.wf4 then
    if h : r.decode.wf = true then some ⟨r.decode, h⟩ else none
  else none

/-! ### The test configuration TC0 (spec/95_test_vectors.md section 1) -/

/-- TC0: the spec's own test data, NOT the protocol (D45). -/
def Cfg.tc0 : Cfg :=
  { preamble := 0x55
    actionCode := #v[0x0A, 0x0B, 0x0C, 0x0D, 0x0E, 0x0F, 0x10, 0x11, 0x12, 0x13]
    cmd :=
      { template := [0x00, 0x00, 0xC0, 0x11, 0x00, 0x05, 0x00, 0x02, 0x00, 0x00, 0x00, 0x00, 0xFF]
        overrides := [⟨0, .ident 0⟩, ⟨1, .ident 1⟩, ⟨6, .nonce⟩, ⟨8, .ident 2⟩, ⟨9, .ident 3⟩, ⟨10, .rand⟩, ⟨11, .action⟩] }
    grp :=
      { template := [0x00, 0x00, 0xC0, 0x11, 0x00, 0x05, 0x00, 0x00, 0x00, 0xFF]
        overrides := [⟨0, .ident 0⟩, ⟨1, .ident 1⟩, ⟨6, .nonce⟩, ⟨7, .chanHigh⟩, ⟨8, .action⟩] }
    dup :=
      { template := List.replicate 13 0x00 ++ [0xEE, 0xEE, 0xEE]
        overrides :=
          [⟨0, .ident 0⟩, ⟨1, .ident 1⟩, ⟨2, .nonce⟩, ⟨3, .const 0x01⟩, ⟨4, .const 0x02⟩, ⟨5, .const 0x03⟩,
            ⟨6, .const 0x04⟩, ⟨7, .const 0x05⟩, ⟨8, .const 0x06⟩, ⟨9, .const 0x07⟩, ⟨10, .const 0x08⟩,
            ⟨11, .ident 2⟩, ⟨12, .ident 3⟩] }
    fav :=
      { template := [0x00, 0x00, 0xC0, 0x11, 0x00, 0x05, 0x00, 0x00, 0x00, 0xAA]
        overrides := [⟨0, .ident 0⟩, ⟨1, .ident 1⟩, ⟨6, .nonce⟩, ⟨7, .chanHigh⟩, ⟨8, .action⟩] }
    chIns := 8, capLen := 32, capOffA := 25, capOffB := 26 }

theorem Cfg.tc0_wf : Cfg.tc0.wf = true := by decide

/-- TC0 with its proof of wf. -/
def WfCfg.tc0 : WfCfg := ⟨Cfg.tc0, Cfg.tc0_wf⟩

/-- The configuration the block is built with: the one its ROM holds. The ROM is opaque, so nothing is known of it but
wf; where the opaque ROM were ill-formed, which the spec rules out (R212), some well-formed configuration must stand
for it, and TC0 shows that one exists (notes/assumptions/4.md). -/
def WfCfg.installed : WfCfg := Config.rom.load.getD WfCfg.tc0

end Sys2Proof
end

