-- ==== Sys2Proof/Machine/State.lean ====
section
/-!
DEFINITION. The state of the PFE: the architectural record of spec/10_state.md R20, and beside it the model's own fields
for what the spec makes arguments of a step (the configuration, the host's transactions, the draws) and for the
observation of a run (spec/70_reset_and_hazards.md R219). Plain data.
-/

namespace Sys2Proof.Machine

/-- The learner states (R31); the encoding 3 is never held. -/
inductive LState where
  | idle
  | searching
  | capturing
  deriving DecidableEq, Repr

/-- Why the machine stops with a fault: there is no reason. The PFE has no traps (R190); a command that cannot complete
ends with an error code in STATUS.ERR, which is a next state (R194). So nothing raises a fault; this is exact, neither
safe nor unsafe. -/
inductive Fault where
  deriving DecidableEq, Repr

/-- Why a step gives no meaning. -/
inductive Refusal where
  /-- Raised by the arm of `exec` of an instruction that has no meaning yet, and by nothing else. Every arm has its
  meaning, so nothing raises it. Safe: it proves nothing about the instruction. -/
  | notModelled (mnemonic : String)
  deriving DecidableEq, Repr

/-- The machine's state. -/
structure State where
  /-- ID0 to ID3, the RadioIdentity the encoder injects (R21). -/
  ident       : Vector Byte 4
  /-- MASK, all eight bits as written (R22). -/
  mask        : Byte
  /-- ACTION, all eight bits as written (R23). -/
  action      : Byte
  /-- PLEN, the length of the payload (R24). -/
  plen        : Byte
  /-- PAYLOAD[0..31] (R25). -/
  payload     : Buf
  /-- FRAME[0..31] (R26). -/
  frame       : Buf
  /-- FRAME_VALID (R26). -/
  frameValid  : Bool
  /-- LAST_NONCE (R35). -/
  lastNonce   : Byte
  /-- LAST_RAND (R35). -/
  lastRand    : Byte
  /-- CRC, the 16-bit accumulator (R27). -/
  crc         : Word16
  /-- CRC_IN (R28). -/
  crcIn       : Byte
  /-- RXBUF[0..31] (R29). -/
  rxbuf       : Buf
  /-- RXLEN (R29). -/
  rxlen       : Byte
  /-- LSTATE (R31). -/
  lstate      : LState
  /-- LID0 to LID3, the LearnedRemote (R30). -/
  lid         : Vector Byte 4
  /-- PREFIX_VALID (R30). -/
  prefixValid : Bool
  /-- FULL_VALID (R30). -/
  fullValid   : Bool
  /-- SYNC_POS (R32). -/
  syncPos     : Byte
  /-- ERR, four bits (R20, R36). -/
  err         : BitVec 4
  /-- THE MODEL'S OWN: the configuration Cfg, the parameter of the step (R7, R40); no step changes it
  (notes/assumptions/4.md). -/
  cfg         : WfCfg
  /-- THE MODEL'S OWN: the transactions the host has still to issue, the next one first (R219;
  notes/assumptions/1.md). -/
  bus         : List BusOp
  /-- THE MODEL'S OWN: the values the read transactions returned, the oldest first (R219; notes/assumptions/2.md). -/
  observed    : List Byte
  /-- THE MODEL'S OWN: the bytes the random input is known to deliver next (R13; notes/assumptions/3.md). -/
  draws       : List Byte
  /-- THE MODEL'S OWN: how many draws have been taken (notes/assumptions/3.md). -/
  drawIndex   : Nat
  deriving DecidableEq, Repr

/-- The state right after reset (R41): every register at the value the table gives it. The model's own fields: the
configuration the block is built with, no transaction pending, nothing observed, no draw known or taken. -/
def State.reset : State where
  ident       := Vector.replicate 4 0x00
  mask        := 0x00
  action      := 0x00
  plen        := 0x00
  payload     := Vector.replicate 32 0x00
  frame       := Vector.replicate 32 0x00
  frameValid  := false
  lastNonce   := 0x00
  lastRand    := 0x00
  crc         := 0xFFFF
  crcIn       := 0x00
  rxbuf       := Vector.replicate 32 0x00
  rxlen       := 0x00
  lstate      := .idle
  lid         := Vector.replicate 4 0x00
  prefixValid := false
  fullValid   := false
  syncPos     := 0x00
  err         := 0x0
  cfg         := WfCfg.installed
  bus         := []
  observed    := []
  draws       := []
  drawIndex   := 0

end Sys2Proof.Machine
end

