-- ==== Sys2Proof/Machine/Flags.lean ====
section
/-!
DEFINITION. The status registers: the error codes of spec/60_exceptions.md R191 and the layouts of STATUS and LSTAT
(spec/10_state.md R36, R37). The PFE has no arithmetic condition codes (R38).
-/

namespace Sys2Proof.Machine

/-- The outcomes a command can end with (R191). Codes 4 and 8 to 15 are reserved and never produced. -/
inductive ErrCode where
  /-- The command completed. -/
  | ok
  /-- The CMD byte is no opcode of R71 (R181). -/
  | illegalCmd
  /-- ACTION is above 9: BUILD, ENCODE. -/
  | badAction
  /-- MASK[7:6] is not 0: BUILD, ENCODE. -/
  | badMask
  /-- The payload and its checksum do not fit in 32 bytes: FINALIZE; BUILD and ENCODE only with an ill-formed Cfg. -/
  | overflow
  /-- PLEN is above 32 for CRC_PAYLOAD, or RXLEN for SCAN and CAPTURE. -/
  | badLen
  /-- SCAN outside Searching, CAPTURE outside Capturing. -/
  | wrongState
  deriving DecidableEq, Repr

/-- The code of an outcome in STATUS[3:0] (R191). -/
def ErrCode.code : ErrCode → BitVec 4
  | .ok => 0
  | .illegalCmd => 1
  | .badAction => 2
  | .badMask => 3
  | .overflow => 5
  | .badLen => 6
  | .wrongState => 7

/-- LSTATE in LSTAT[1:0] (R31, R37). -/
def LState.code : LState → BitVec 2
  | .idle => 0
  | .searching => 1
  | .capturing => 2

/-- STATUS: ERR in 3:0, FRAME_VALID in 4, 7:5 read 0 (R36). -/
def State.statusByte (s : State) : Byte := 0#3 ++ BitVec.ofBool s.frameValid ++ s.err

/-- LSTAT: LSTATE in 1:0, PREFIX_VALID in 2, FULL_VALID in 3, 7:4 read 0 (R37). -/
def State.lstatByte (s : State) : Byte :=
  0#4 ++ BitVec.ofBool s.fullValid ++ BitVec.ofBool s.prefixValid ++ s.lstate.code

end Sys2Proof.Machine
end

