-- ==== Sys2Proof/Machine/Ops.lean ====
section
/-!
DEFINITION. The named operations on the state: ending a command with or without an error, a draw of the random input,
the byte buffers, the host's bus reads and writes, and reset. The PFE has no traps: raising an error is what taking an
exception is on this hardware, and there is no return from one (spec/60_exceptions.md R190, R194, R196).
-/

namespace Sys2Proof.Machine

/-! ### Ending a command -/

/-- ERR <- the code of an outcome, the last effect of every command (R12, R38, R195). -/
def State.setErr (s : State) (e : ErrCode) : State := { s with err := e.code }

/-- `raise Error(code)`: the command ends at once; ERR takes the code and nothing else changes (R12, R194). -/
def State.raise (s : State) (e : ErrCode) : State := s.setErr e

/-- The command completed: ERR <- OK (R12). -/
def State.complete (s : State) : State := s.setErr .ok

/-! ### The random input -/

/-- The byte the next `draw()` yields (R13, R123): the byte the environment lists for it, else the free value of this
draw. -/
def State.nextDraw (s : State) : Byte := s.draws.headD (Config.freeDraw s.drawIndex)

/-- The state after one `draw()`: the draw is used up, and nothing of the block's own state changes (R39). -/
def State.afterDraw (s : State) : State := { s with draws := s.draws.tail, drawIndex := s.drawIndex + 1 }

/-! ### Byte buffers -/

/-- `b[0:n)` (R10). -/
def bufTake (b : Buf) (n : Nat) : List Byte := b.toList.take n

/-- `b[0:len(xs)) <- xs`, the other bytes unchanged (R25); no caller gives more than 32 bytes. -/
def bufOverwrite (b : Buf) (xs : List Byte) : Buf := Vector.ofFn fun i => xs.getD i.val b[i]

/-- The buffer that holds a list of exactly 32 bytes; every caller gives such a list. -/
def bufOfList (xs : List Byte) : Buf := Vector.ofFn fun i => xs.getD i.val 0x00

/-- `b[n]`. Callers keep n below 32; above it the value is 0x00 (notes/assumptions/19.md). -/
def bufByte (b : Buf) (n : Nat) : Byte := b.toList.getD n 0x00

/-! ### The bus -/

/-- CRC[15:8], the CRC_HI register (R27). -/
def crcHiByte (c : Word16) : Byte := c.extractLsb' 8 8

/-- CRC[7:0], the CRC_LO register (R27). -/
def crcLoByte (c : Word16) : Byte := c.extractLsb' 0 8

/-- The byte a location reads as: the register's value for R and RW locations, the layouts of STATUS and LSTAT, and 0x00
for CMD and reserved locations (R51, R52). -/
def State.readLoc (s : State) : Loc → Byte
  | .cmd => 0x00
  | .status => s.statusByte
  | .action => s.action
  | .mask => s.mask
  | .ident j => s.ident[j]
  | .plen => s.plen
  | .crcHi => crcHiByte s.crc
  | .crcLo => crcLoByte s.crc
  | .crcIn => s.crcIn
  | .lstat => s.lstatByte
  | .rxlen => s.rxlen
  | .syncPos => s.syncPos
  | .lastNonce => s.lastNonce
  | .lastRand => s.lastRand
  | .lid j => s.lid[j]
  | .reserved _ => 0x00
  | .payload i => s.payload[i]
  | .frame i => s.frame[i]
  | .rxbuf i => s.rxbuf[i]

/-- `MemRead(a, 1)`: the byte read; a read changes no state (R52, R61). -/
def State.busRead (s : State) (a : Addr) : Byte := s.readLoc (locOf a)

/-- The effect of a write to a location other than CMD: an RW location takes all eight bits, and an R or reserved
location takes nothing (R53). A write to CMD starts a command (R54) and stores nothing by itself. -/
def State.writeLoc (s : State) (v : Byte) : Loc → State
  | .action => { s with action := v }
  | .mask => { s with mask := v }
  | .ident j => { s with ident := s.ident.set j v }
  | .plen => { s with plen := v }
  | .crcHi => { s with crc := v ++ crcLoByte s.crc }
  | .crcLo => { s with crc := crcHiByte s.crc ++ v }
  | .crcIn => { s with crcIn := v }
  | .rxlen => { s with rxlen := v }
  | .payload i => { s with payload := s.payload.set i v }
  | .rxbuf i => { s with rxbuf := s.rxbuf.set i v }
  | .cmd => s
  | .status => s
  | .lstat => s
  | .syncPos => s
  | .lastNonce => s
  | .lastRand => s
  | .lid _ => s
  | .reserved _ => s
  | .frame _ => s

/-- The register effect of `MemWrite(a, 1, v)` (R53). -/
def State.busWrite (s : State) (a : Addr) (v : Byte) : State := s.writeLoc v (locOf a)

/-- A read transaction: the host observes the byte; nothing else changes (R52, R219). -/
def State.observe (s : State) (v : Byte) : State := { s with observed := s.observed ++ [v] }

/-! ### Reset and the host's transactions -/

/-- The reset input: every piece of architectural state takes its value of R41. The configuration is not state, the
random input has no state to reset (R210), and what the host still has to issue or has observed is the host's. -/
def State.resetBlock (s : State) : State :=
  { State.reset with cfg := s.cfg, bus := s.bus, observed := s.observed, draws := s.draws, drawIndex := s.drawIndex }

/-- The state with other transactions pending. -/
def State.withBus (s : State) (ops : List BusOp) : State := { s with bus := ops }

end Sys2Proof.Machine
end

