-- ==== Sys2Proof/Machine/Control.lean ====
section
/-!
DEFINITION. The control commands: NOP and the illegal command (spec/43_control.md R180, R181).
-/

namespace Sys2Proof.Machine

/-- NOP: ERR <- OK (R180). -/
def execNop (s : State) : Host.Outcome State Fault Refusal := .next s.complete

/-- The illegal command, for each of the 245 reserved opcodes: ERR <- ILLEGAL_CMD (R72, R181). -/
def illegalCommand (s : State) : Host.Outcome State Fault Refusal := .next (s.raise .illegalCmd)

end Sys2Proof.Machine
end

