-- ==== Sys2Proof/Machine/Operands.lean ====
section
/-!
DEFINITION. The operand encodings: the action index and its kind (spec/30_encoding.md R73, R74), the channel mask (R75)
and its helper functions (spec/00_scope.md R14), and the value of a selector (spec/30_encoding.md R76).
-/

namespace Sys2Proof.Machine

/-! ### ACTION -/

/-- BlindAction, in the order of R73. -/
inductive BlindAction where
  | blindOpen
  | blindClose
  | tiltOpen
  | tiltClose
  | stop
  | toFavorite
  | setFavorite
  | join
  | remove
  | duplicate
  deriving DecidableEq, Repr

/-- The ten actions in the order of their indices (R73). -/
def blindActions : List BlindAction :=
  [.blindOpen, .blindClose, .tiltOpen, .tiltClose, .stop, .toFavorite, .setFavorite, .join, .remove, .duplicate]

/-- The action ACTION holds the index of; values 10 to 255 encode none (R73). -/
def actionOf (v : Byte) : Option BlindAction := blindActions[v.toNat]?

/-- The index of an action (R73). -/
def BlindAction.index : BlindAction → Fin 10
  | .blindOpen => 0
  | .blindClose => 1
  | .tiltOpen => 2
  | .tiltClose => 3
  | .stop => 4
  | .toFavorite => 5
  | .setFavorite => 6
  | .join => 7
  | .remove => 8
  | .duplicate => 9

/-- KIND(a) (R74). -/
def BlindAction.kind : BlindAction → Kind
  | .blindOpen => .cmd
  | .blindClose => .cmd
  | .tiltOpen => .cmd
  | .tiltClose => .cmd
  | .stop => .cmd
  | .toFavorite => .cmd
  | .setFavorite => .fav
  | .join => .grp
  | .remove => .grp
  | .duplicate => .dup

/-- The on-air byte of an action, Cfg.ACTION_CODE[index] (R73). -/
def actionCodeOf (c : Cfg) (a : BlindAction) : Byte := c.actionCode[a.index]

/-! ### MASK -/

/-- The channels a mask is about: bit i selects channel i+1, for i in 0..5 (R75). -/
def channelBits : List Nat := [0, 1, 2, 3, 4, 5]

/-- MASK[7:6] != 0: the mask is invalid (R75). -/
def maskInvalid (m : Byte) : Bool := m.extractLsb' 6 2 ≠ 0#2

/-- The bits i in 0..5 with m[i] = 1, in increasing i. -/
def setBits (m : Byte) : List Nat := channelBits.filter fun i => m.getLsbD i

/-- popcount6(m): the number of set bits in m[5:0] (R14). -/
def popcount6 (m : Byte) : Nat := (setBits m).length

/-- chlist(m): the channel number i+1 for each set bit, low to high (R14). -/
def chlist (m : Byte) : List Byte := (setBits m).map fun i => BitVec.ofNat 8 (i + 1)

/-- hsb6(m): the largest i in 0..5 with m[i] = 1, where there is one (R14). -/
def hsb6 (m : Byte) : Option Nat := (setBits m).getLast?

/-- chan_high(m): hsb6(m) + 1, and 0x00 when no channel is selected (R14, R125). -/
def chanHigh (m : Byte) : Byte :=
  match hsb6 m with
  | some i => BitVec.ofNat 8 (i + 1)
  | none => 0x00

/-! ### Selectors -/

/-- The operands of a BUILD: the action, the mask, the identity and the two draws (R131). -/
structure BuildInputs where
  act   : BlindAction
  mask  : Byte
  ident : Vector Byte 4
  r0    : Byte
  r1    : Byte
  deriving DecidableEq, Repr

/-- selval(sel): the "value written" column of R76 (R125). -/
def selval (c : Cfg) (x : BuildInputs) : Selector → Byte
  | .ident j => x.ident[j]
  | .nonce => x.r0
  | .rand => x.r1
  | .action => actionCodeOf c x.act
  | .chanHigh => chanHigh x.mask
  | .const v => v

end Sys2Proof.Machine
end

