-- ==== Sys2Proof/Machine/Crc.lean ====
section
/-!
DEFINITION. The checksum generator CRCU: the checksum function of spec/40_crc.md R100 to R102 and the commands CRC_INIT,
CRC_UPDATE and CRC_PAYLOAD (R103 to R105).
-/

namespace Sys2Proof.Machine

/-! ### The checksum function -/

/-- CRC_POLY (R6). -/
def crcPoly : Word16 := 0x755B

/-- CRC_INIT (R6). -/
def crcInitial : Word16 := 0xFFFF

/-- One of the eight rounds of crc_step: shift left, and add the polynomial where bit 15 was 1 (R100). -/
def crcRound (c : Word16) : Word16 := if c.getLsbD 15 then (c <<< 1) ^^^ crcPoly else c <<< 1

/-- Eight rounds. -/
def crcRounds (c : Word16) : Word16 :=
  crcRound (crcRound (crcRound (crcRound (crcRound (crcRound (crcRound (crcRound c)))))))

/-- crc_step(c, b): the byte enters the register's high end, then eight rounds (R100). -/
def crcStep (c : Word16) (b : Byte) : Word16 := crcRounds (c ^^^ (b.setWidth 16 <<< 8))

/-- The checksum continued from a register value. -/
def crcFrom (c : Word16) (xs : List Byte) : Word16 := xs.foldl crcStep c

/-- CRC16(xs) (R100). -/
def crc16 (xs : List Byte) : Word16 := crcFrom crcInitial xs

/-- TBL[i] = crc_step(0x0000, i), the lookup table of R102. -/
def crcTable (i : Byte) : Word16 := crcStep 0x0000 i

/-- The two checksum bytes, high byte first (R56, R133). -/
def checksumBytes (c : Word16) : List Byte := [crcHiByte c, crcLoByte c]

/-! ### The commands -/

/-- CRC_INIT: CRC <- 0xFFFF (R103). -/
def execCrcInit (s : State) : Host.Outcome State Fault Refusal :=
  .next { s with crc := crcInitial }.complete

/-- CRC_UPDATE: CRC <- crc_step(CRC, CRC_IN); CRC_IN is not consumed (R104). -/
def execCrcUpdate (s : State) : Host.Outcome State Fault Refusal :=
  .next { s with crc := crcStep s.crc s.crcIn }.complete

/-- The state CRC_PAYLOAD leaves: BAD_LEN above 32, else CRC <- CRC16(PAYLOAD[0:PLEN)) (R105). -/
def crcPayloadState (s : State) : State :=
  if s.plen.toNat > 32 then s.raise .badLen
  else { s with crc := crc16 (bufTake s.payload s.plen.toNat) }.complete

/-- CRC_PAYLOAD (R105). -/
def execCrcPayload (s : State) : Host.Outcome State Fault Refusal := .next (crcPayloadState s)

end Sys2Proof.Machine
end

