-- ==== Sys2Proof/Machine/Encoder.lean ====
section
/-!
DEFINITION. The frame encoder FENC: the payload and frame functions of spec/41_frame_encoder.md R124 to R133 and the
commands BUILD, FINALIZE and ENCODE (R132, R134, R135).
-/

namespace Sys2Proof.Machine

/-! ### Functions -/

/-- apply(t, ov): each entry overwrites the template byte at its offset, the rest keeps its template value (R124). -/
def applyOverrides (c : Cfg) (x : BuildInputs) (t : List Byte) (ov : List Override) : List Byte :=
  ov.foldl (fun t e => t.set e.offset (selval c x e.sel)) t

/-- Command inflation: the count byte at CH_INS - 1 grows by the number of channels, modulo 256, and the channel list is
inserted at CH_INS (R126). -/
def inflate (c : Cfg) (m : Byte) (t : List Byte) : List Byte :=
  let t' := t.modify (c.chIns - 1) fun b => b + BitVec.ofNat 8 (popcount6 m)
  t'.take c.chIns ++ chlist m ++ t'.drop c.chIns

/-- build_payload (R131): the overridden template of the kind, inflated for the Command kind. -/
def buildPayload (c : Cfg) (x : BuildInputs) : List Byte :=
  let k := x.act.kind
  let t := applyOverrides c x (c.kcfg k).template (c.kcfg k).overrides
  if k = .cmd then inflate c x.mask t else t

/-- P, the payload length: L_k, and popcount6(m) more for the Command kind (R131, R132). -/
def payloadLength (c : Cfg) (a : BlindAction) (m : Byte) : Nat :=
  (c.kcfg a.kind).length + if a.kind = .cmd then popcount6 m else 0

/-- The 32 wire bytes of finalize_bytes as a list, for a payload of at most 30 bytes (R133). -/
def wireBytes (preamble : Byte) (xs : List Byte) : List Byte :=
  List.replicate (30 - xs.length) preamble ++ (xs ++ checksumBytes (crc16 xs))

/-- finalize_bytes(Cfg, xs), for at most 30 bytes (R133). -/
def finalizeBytes (c : Cfg) (xs : List Byte) : Buf := bufOfList (wireBytes c.preamble xs)

/-! ### Validation -/

/-- The first error of a BUILD or ENCODE, in the order BAD_ACTION, BAD_MASK, OVERFLOW, or the action to build (R122,
R193). OVERFLOW cannot happen under wf(Cfg). -/
def validateBuild (s : State) : Except ErrCode BlindAction :=
  match actionOf s.action with
  | none => .error .badAction
  | some a =>
    if maskInvalid s.mask then .error .badMask
    else if payloadLength s.cfg.toCfg a s.mask > 30 then .error .overflow
    else .ok a

/-! ### The commands -/

/-- The operands of the BUILD of an action: the registers, and the next two draws, r0 first (R123, R131). -/
def buildInputs (s : State) (a : BlindAction) : BuildInputs :=
  { act := a, mask := s.mask, ident := s.ident, r0 := s.nextDraw, r1 := s.afterDraw.nextDraw }

/-- The effect of a BUILD that passed validation: two draws, PAYLOAD[0:P), PLEN, LAST_NONCE, LAST_RAND (R132). -/
def buildAction (s : State) (a : BlindAction) : State :=
  let x := buildInputs s a
  { s.afterDraw.afterDraw with
    payload := bufOverwrite s.payload (buildPayload s.cfg.toCfg x)
    plen := BitVec.ofNat 8 (payloadLength s.cfg.toCfg a s.mask)
    lastNonce := x.r0
    lastRand := x.r1 }.complete

/-- The state BUILD leaves (R132): on an error only ERR changes and no draw is taken. -/
def buildState (s : State) : State :=
  match validateBuild s with
  | .error e => s.raise e
  | .ok a => buildAction s a

/-- BUILD (R132). -/
def execBuild (s : State) : Host.Outcome State Fault Refusal := .next (buildState s)

/-- The state FINALIZE leaves (R134): OVERFLOW where PLEN > 30, else FRAME and FRAME_VALID. -/
def finalizeState (s : State) : State :=
  if s.plen.toNat > 30 then s.raise .overflow
  else
    { s with
      frame := finalizeBytes s.cfg.toCfg (bufTake s.payload s.plen.toNat)
      frameValid := true }.complete

/-- FINALIZE (R134). -/
def execFinalize (s : State) : Host.Outcome State Fault Refusal := .next (finalizeState s)

/-- The state ENCODE leaves (R135): BUILD, and where it raised no error, FINALIZE on the payload just written. -/
def encodeState (s : State) : State :=
  match validateBuild s with
  | .error e => s.raise e
  | .ok a => finalizeState (buildAction s a)

/-- ENCODE (R135). -/
def execEncode (s : State) : Host.Outcome State Fault Refusal := .next (encodeState s)

end Sys2Proof.Machine
end

