-- ==== Sys2Proof/Machine/Sync.lean ====
section
/-!
DEFINITION. The synchronization pattern matcher SYNC: the scan of spec/42_sync_matcher.md R161 and R162 and the commands
LEARN_START, LEARN_CANCEL, SCAN and CAPTURE (R163 to R166).
-/

namespace Sys2Proof.Machine

/-! ### The scan -/

/-- SYNC_PAT (R161). -/
def syncPat : List Byte := [0xC0, 0x11, 0x00, 0x05]

/-- The loop of scan from index i on, with the running match counter cnt: a mismatching byte sets the counter to 0 and is
not compared again; a complete match is accepted where it starts at index 2 or later, and else discarded (R162). -/
def scanFrom : List Byte → Nat → Nat → Option Nat
  | [], _, _ => none
  | b :: bs, i, cnt =>
    if syncPat[cnt]? = some b then
      if cnt + 1 = 4 then
        if i - 3 ≥ 2 then some (i - 3) else scanFrom bs (i + 1) 0
      else scanFrom bs (i + 1) (cnt + 1)
    else scanFrom bs (i + 1) 0

/-- scan(b): the index of the first pattern byte of the first accepted match, if any; the counter starts at 0 for each
stream (R162). -/
def scanStream (b : List Byte) : Option Nat := scanFrom b 0 0

/-! ### The commands -/

/-- LEARN_START: Searching, the LearnedRemote cleared (R163). -/
def execLearnStart (s : State) : Host.Outcome State Fault Refusal :=
  .next
    { s with
      lstate := .searching
      lid := Vector.replicate 4 0x00
      prefixValid := false
      fullValid := false
      syncPos := 0x00 }.complete

/-- LEARN_CANCEL: Idle, the LearnedRemote kept (R164). -/
def execLearnCancel (s : State) : Host.Outcome State Fault Refusal :=
  .next { s with lstate := .idle }.complete

/-- The effect of a match accepted at index p: the two bytes before the pattern are LID0 and LID1 (R165). -/
def acceptMatch (s : State) (p : Nat) : State :=
  { s with
    lid := (s.lid.set 0 (bufByte s.rxbuf (p - 2))).set 1 (bufByte s.rxbuf (p - 1))
    prefixValid := true
    syncPos := BitVec.ofNat 8 p
    lstate := .capturing }

/-- The state SCAN leaves (R165). -/
def scanState (s : State) : State :=
  if s.lstate ≠ .searching then s.raise .wrongState
  else if s.rxlen.toNat > 32 then s.raise .badLen
  else
    match scanStream (bufTake s.rxbuf s.rxlen.toNat) with
    | some p => (acceptMatch s p).complete
    | none => s.complete

/-- SCAN (R165). -/
def execScan (s : State) : Host.Outcome State Fault Refusal := .next (scanState s)

/-- The effect of an accepted command-length frame: LID2 and LID3 from the capture offsets (R166). -/
def acceptCapture (s : State) : State :=
  { s with
    lid := (s.lid.set 2 (bufByte s.rxbuf s.cfg.toCfg.capOffA)).set 3 (bufByte s.rxbuf s.cfg.toCfg.capOffB)
    fullValid := true }

/-- The state CAPTURE leaves (R166): a frame of another length is ignored. -/
def captureState (s : State) : State :=
  if s.lstate ≠ .capturing then s.raise .wrongState
  else if s.rxlen.toNat > 32 then s.raise .badLen
  else if s.rxlen.toNat = s.cfg.toCfg.capLen then (acceptCapture s).complete
  else s.complete

/-- CAPTURE (R166). -/
def execCapture (s : State) : Host.Outcome State Fault Refusal := .next (captureState s)

end Sys2Proof.Machine
end

