-- ==== Sys2Proof/Machine/Dispatch.lean ====
section
/-!
DEFINITION. The dispatch of a command to its meaning, one arm per constructor of Instr (spec/30_encoding.md R71).
-/

namespace Sys2Proof.Machine

def exec (i : Instr) (s : State) : Host.Outcome State Fault Refusal :=
  match i with
  | .nop => Sys2Proof.Machine.execNop s
  | .encode => Sys2Proof.Machine.execEncode s
  | .build => Sys2Proof.Machine.execBuild s
  | .finalize => Sys2Proof.Machine.execFinalize s
  | .crcInit => Sys2Proof.Machine.execCrcInit s
  | .crcUpdate => Sys2Proof.Machine.execCrcUpdate s
  | .crcPayload => Sys2Proof.Machine.execCrcPayload s
  | .learnStart => Sys2Proof.Machine.execLearnStart s
  | .learnCancel => Sys2Proof.Machine.execLearnCancel s
  | .scan => Sys2Proof.Machine.execScan s
  | .capture => Sys2Proof.Machine.execCapture s

end Sys2Proof.Machine
end

