-- ==== Sys2Proof/Machine/Transact.lean ====
section
/-!
DEFINITION. One transaction of the host: a bus read, a bus write, a command started by a write to CMD, or reset
(spec/20_memory.md R52 to R54, R60; spec/70_reset_and_hazards.md R210, R219).
-/

namespace Sys2Proof.Machine

/-- A write of `opcode` to CMD: the command it decodes to, or the illegal command (R54, R71). -/
def runCommand (opcode : Byte) (s : State) : Host.Outcome State Fault Refusal :=
  match decode opcode with
  | .command i => exec i s
  | .illegal _ => illegalCommand s

/-- One transaction, complete before the next is accepted (R54, R60). -/
def transact (op : BusOp) (s : State) : Host.Outcome State Fault Refusal :=
  match op with
  | .read a => .next (s.observe (s.busRead a))
  | .write a v => if locOf a = .cmd then runCommand v s else .next (s.busWrite a v)
  | .reset => .next s.resetBlock

/-- The next pending transaction; with none pending the block, which never acts on its own, stays as it is
(R33; notes/assumptions/1.md). -/
def takeTransaction (s : State) : Host.Outcome State Fault Refusal :=
  match s.bus with
  | [] => .next s
  | op :: rest => transact op (s.withBus rest)

/-- A write of `opcode` to CMD placed in front of the host's pending transactions. -/
def placeCommand (opcode : Byte) (s : State) : State := s.withBus (.write (addrOf .cmd) opcode :: s.bus)

end Sys2Proof.Machine
end

