-- ==== Sys2Proof/Machine/Step.lean ====
section
/-!
DEFINITION. One step of the machine: one transaction of the host (spec/20_memory.md R60: a model treats one transaction
as one step).
-/

namespace Sys2Proof.Machine

/-- One step: the next transaction of the host. -/
def step (s : State) : Host.Outcome State Fault Refusal := takeTransaction s

/-- The state whose next step runs the command of an opcode-table word: the PFE fetches nothing (R33), so the command is
a CMD write at the front of the host's pending transactions (notes/assumptions/1.md). -/
def State.withFetchWord (s : State) (nbits w : Nat) : State := placeCommand (tableByte nbits w) s

end Sys2Proof.Machine
end

