-- ==== Sys2Proof/Machine/HostSyntax.lean ====
section
/-!
DEFINITION. The host's transaction syntax and its pseudo-instructions (spec/30_encoding.md R81, R83). They are names for
bus transactions; the block itself sees only the transactions.
-/

namespace Sys2Proof.Machine

/-- A statement of the host syntax: one bus transaction (R81). -/
inductive Stmt where
  /-- `WR <loc>, <imm8>`. -/
  | wr (l : Loc) (v : Byte)
  /-- `WR @0xNN, <imm8>`. -/
  | wrAt (a : Addr) (v : Byte)
  /-- `RD <loc>`. -/
  | rd (l : Loc)
  /-- `RD @0xNN`. -/
  | rdAt (a : Addr)
  /-- `CMD <mnemonic>`; a mnemonic written alone means this (R83). -/
  | cmd (i : Instr)
  deriving DecidableEq, Repr

/-- The transaction of a statement (R81). -/
def Stmt.op : Stmt → BusOp
  | .wr l v => .write (addrOf l) v
  | .wrAt a v => .write a v
  | .rd l => .read (addrOf l)
  | .rdAt a => .read a
  | .cmd i => .write (addrOf .cmd) (encode i)

/-- `SETID b0, b1, b2, b3` (R83). -/
def setId (b0 b1 b2 b3 : Byte) : List Stmt :=
  [.wr (.ident 0) b0, .wr (.ident 1) b1, .wr (.ident 2) b2, .wr (.ident 3) b3]

/-- Writes of a byte list to a buffer's locations from index 0 on, then of its length: what LDPAY and LDRX share; a list
of more than 32 bytes has no expansion (R83). -/
def loadBuffer (loc : Fin 32 → Loc) (lenLoc : Loc) (xs : List Byte) : Option (List Stmt) :=
  if h : xs.length ≤ 32 then
    some (List.ofFn (fun i : Fin xs.length => .wr (loc ⟨i.val, by omega⟩) xs[i])
      ++ [.wr lenLoc (BitVec.ofNat 8 xs.length)])
  else none

/-- `LDPAY b0, ..., b(n-1)` (R83). -/
def ldPay (xs : List Byte) : Option (List Stmt) := loadBuffer .payload .plen xs

/-- `LDRX b0, ..., b(n-1)` (R83). -/
def ldRx (xs : List Byte) : Option (List Stmt) := loadBuffer .rxbuf .rxlen xs

/-- `RDFRAME` (R83). -/
def rdFrame : List Stmt := (List.finRange 32).map fun i => .rd (.frame i)

/-- `LOOPBACK` (R83): the values the host writes are those its reads returned, so they are an argument here
(notes/assumptions/25.md). -/
def loopback (values : Buf) : List Stmt :=
  ((List.finRange 32).flatMap fun i => [.rd (.frame i), .wr (.rxbuf i) values[i]]) ++ [.wr .rxlen 32]

end Sys2Proof.Machine
end

