-- ==== Sys2Proof/Safety.lean ====
section
/-!
DEFINITION. What counts as a safe state and a safe run of the PFE, and the words claims are stated in: the produced error
codes (spec/60_exceptions.md R191), the consistency of the learner's registers (spec/10_state.md R30 to R32), the shape
of a finalized frame (spec/41_frame_encoder.md R136), and a run (spec/70_reset_and_hazards.md R219).
-/

namespace Sys2Proof.Machine

/-- The codes a command can end with; 4 and 8 to 15 are reserved and never produced (R191, I10). -/
def producedCodes : List (BitVec 4) := [0, 1, 2, 3, 5, 6, 7]

/-- ERR holds a code of R191. -/
def State.ErrProduced (s : State) : Prop := s.err ∈ producedCodes

/-- The learner's registers fit together (R30 to R32, R160): a matched prefix goes with a SYNC_POS in 2 to 28; without
one LID0, LID1, SYNC_POS and FULL_VALID are clear; LID2 and LID3 are clear until FULL_VALID; Capturing has a prefix and
Searching has none. -/
def State.LearnerConsistent (s : State) : Prop :=
  (s.prefixValid = true → 2 ≤ s.syncPos.toNat ∧ s.syncPos.toNat ≤ 28) ∧
  (s.prefixValid = false → s.syncPos = 0 ∧ s.lid[0] = 0 ∧ s.lid[1] = 0 ∧ s.fullValid = false) ∧
  (s.fullValid = false → s.lid[2] = 0 ∧ s.lid[3] = 0) ∧
  (s.lstate = .capturing → s.prefixValid = true) ∧
  (s.lstate = .searching → s.prefixValid = false)

/-- `f` is a finalized frame: for some payload of at most 30 bytes, preamble bytes, the payload, then its checksum high
byte first (R133, R136). -/
def IsFrame (preamble : Byte) (f : Buf) : Prop :=
  ∃ xs : List Byte, xs.length ≤ 30 ∧
    f.toList = List.replicate (30 - xs.length) preamble ++ xs ++ [crcHiByte (crc16 xs), crcLoByte (crc16 xs)]

/-- FRAME holds a finalized frame once FRAME_VALID is 1, and its reset bytes before (R26). -/
def State.FrameConsistent (s : State) : Prop :=
  (s.frameValid = true → IsFrame s.cfg.toCfg.preamble s.frame) ∧
  (s.frameValid = false → s.frame = Vector.replicate 32 0x00)

/-- The invariant of the machine. -/
def State.Inv (s : State) : Prop := s.ErrProduced ∧ s.LearnerConsistent ∧ s.FrameConsistent

/-- A run of `n` steps is safe when no step faults or is refused and the invariant holds at its end. -/
def SafeRun (n : Nat) (s : State) : Prop := ∃ t, Host.Core.run Sys2Proof.core n s = .next t ∧ State.Inv t

/-- ACTION and MASK hold operands a BUILD or ENCODE accepts (R122): an action index of at most 9 and MASK[7:6] = 0. -/
def State.ValidOperands (s : State) : Prop := s.action.toNat ≤ 9 ∧ s.mask.toNat < 64

/-- Feeding a byte list to CRC_UPDATE: each byte written to CRC_IN, then CRC_UPDATE (R104). -/
def crcFeed (s : State) : List Byte → Host.Outcome State Fault Refusal
  | [] => .next s
  | b :: bs =>
    match exec .crcUpdate { s with crcIn := b } with
    | .next t => crcFeed t bs
    | .fault f => .fault f
    | .refused r => .refused r

/-- The payload index at which a Command template byte of offset `o` stands when `n` channels are inserted (R126). -/
def wirePayloadIndex (c : Cfg) (n o : Nat) : Nat := if o < c.chIns then o else o + n

/-- The payload index at which a template byte of offset `o` stands, for any kind: the Command kind makes room for its
`n` channels, the other kinds do not inflate (R126, R131). -/
def payloadIndex (c : Cfg) (k : Kind) (n o : Nat) : Nat := if k = .cmd then wirePayloadIndex c n o else o

/-- The byte a selector stands for in a state whose draws were `r0` and `r1`: the "value written" column of R76. -/
def State.selectorByte (s : State) (r0 r1 : Byte) : Selector → Byte
  | .ident j => s.ident[j]
  | .nonce => r0
  | .rand => r1
  | .action => s.cfg.toCfg.actionCode.toList.getD s.action.toNat 0x00
  | .chanHigh => chanHigh s.mask
  | .const v => v

/-- `frame` is the finalized frame of `payload[0:p)`: PREAMBLE before it, its bytes, then the checksum of exactly those
bytes, high byte first (R133). -/
def FrameLayout (preamble : Byte) (p : Nat) (payload frame : Buf) : Prop :=
  (∀ i, i < 30 - p → bufByte frame i = preamble) ∧
  (∀ i, i < p → bufByte frame (30 - p + i) = bufByte payload i) ∧
  bufByte frame 30 = crcHiByte (crc16 (payload.toList.take p)) ∧
  bufByte frame 31 = crcLoByte (crc16 (payload.toList.take p))

/-- Every piece of the architectural state has its value of the table of R41. -/
def State.AtResetValues (t : State) : Prop :=
  (∀ j : Fin 4, t.ident[j] = 0x00) ∧ t.mask = 0x00 ∧ t.action = 0x00 ∧ t.plen = 0x00 ∧
  (∀ i : Fin 32, t.payload[i] = 0x00) ∧ (∀ i : Fin 32, t.frame[i] = 0x00) ∧ t.frameValid = false ∧
  t.lastNonce = 0x00 ∧ t.lastRand = 0x00 ∧ t.crc = 0xFFFF ∧ t.crcIn = 0x00 ∧
  (∀ i : Fin 32, t.rxbuf[i] = 0x00) ∧ t.rxlen = 0x00 ∧ t.lstate = .idle ∧ (∀ j : Fin 4, t.lid[j] = 0x00) ∧
  t.prefixValid = false ∧ t.fullValid = false ∧ t.syncPos = 0x00 ∧ t.err = 0

/-- The eleven opcodes of R71. -/
def opcodes : List Byte := [0x00, 0x01, 0x02, 0x03, 0x10, 0x11, 0x12, 0x20, 0x21, 0x22, 0x23]

/-- The RW addresses of R51: ACTION, MASK, ID0 to ID3, PLEN, CRC_HI, CRC_LO, CRC_IN, RXLEN, PAYLOAD and RXBUF. -/
def rwAddress (a : Addr) : Bool :=
  (0x02 ≤ a.toNat && a.toNat ≤ 0x0B) || a.toNat = 0x0D || (0x20 ≤ a.toNat && a.toNat ≤ 0x3F) || 0x60 ≤ a.toNat

/-- The offset field 23:16 of an override's ROM word (R77). -/
def romOffset (w : BitVec 24) : Byte := w.extractLsb' 16 8

/-- The selector-code field 15:8 of an override's ROM word (R77). -/
def romCode (w : BitVec 24) : Byte := w.extractLsb' 8 8

/-- The value field 7:0 of an override's ROM word (R77). -/
def romValue (w : BitVec 24) : Byte := w.extractLsb' 0 8

/-- How many ROM words of a kind have a selector code from `lo` to `hi` (R76). -/
def wordsOfCodes (k : KindRom) (lo hi : Byte) : Nat :=
  k.overrides.countP fun w => lo.toNat ≤ (romCode w).toNat && (romCode w).toNat ≤ hi.toNat

/-- Not a read transaction. -/
def BusOp.isNotRead : BusOp → Bool
  | .read _ => false
  | _ => true

end Sys2Proof.Machine
end

