-- ==== Sys2Proof/WellFormed.lean ====
section
/-!
DEFINITION. Well-formedness. A command has no field (spec/30_encoding.md R70, R84), so every term of `Instr` is an
instruction; what can be ill-formed is the configuration, and its checks WF1 to WF10 (R79) are in Machine/Cfg.lean.
-/

namespace Sys2Proof

/-- Every command is well-formed: it has no operand that could be out of range (R84). -/
def Instr.WellFormed (_ : Instr) : Bool := true

/-- A ROM is well-formed when its words decode (WF4) and the record they stand for passes wf(Cfg) (R79). -/
def Rom.WellFormed (r : Rom) : Bool := r.wf4 && r.decode.wf

end Sys2Proof
end

