-- ==== Sys2Proof/Certificates/Slice0/Obligations.lean ====
section
/-!
DEFINITION. The statements for the provers. Each docstring names the rule of spec/ it formalises.
-/

open Sys2Proof Sys2Proof.Machine

/-! ### Encodings -/

/-- R71: the opcode map, and decode is total: every other value is the illegal command. -/
def Obligations.CommandDecodeFollowsTheOpcodeMap : Prop :=
  decode 0x00 = .command .nop ∧ decode 0x01 = .command .encode ∧ decode 0x02 = .command .build ∧
  decode 0x03 = .command .finalize ∧ decode 0x10 = .command .crcInit ∧ decode 0x11 = .command .crcUpdate ∧
  decode 0x12 = .command .crcPayload ∧ decode 0x20 = .command .learnStart ∧ decode 0x21 = .command .learnCancel ∧
  decode 0x22 = .command .scan ∧ decode 0x23 = .command .capture ∧
  (∀ v : Byte, v ∉ opcodes → decode v = .illegal v) ∧
  (∀ (v : Byte) (i : Instr), decode v = .command i ↔ v = encode i)

/-- R82: the fields of a transaction's 16-bit listing word; the word and the transaction determine each other, for every
transaction and every word of this layout; the four words the rule writes out. -/
def Obligations.TransactionWordRoundTrip : Prop :=
  (∀ (a : Addr) (v : Byte), ∃ w, (BusOp.write a v).toWord = some w ∧ BusOp.ofWord w = some (.write a v) ∧
    w.getLsbD 15 = true ∧ w.extractLsb' 8 7 = a ∧ w.extractLsb' 0 8 = v) ∧
  (∀ a : Addr, ∃ w, (BusOp.read a).toWord = some w ∧ BusOp.ofWord w = some (.read a) ∧
    w.getLsbD 15 = false ∧ w.extractLsb' 8 7 = a ∧ w.extractLsb' 0 8 = 0x00) ∧
  (∀ w : Word16, w.getLsbD 15 = true ∨ w.extractLsb' 0 8 = 0x00 →
    ∃ op, BusOp.ofWord w = some op ∧ op.toWord = some w) ∧
  BusOp.ofWord 0x8001 = some (.write 0x00 0x01) ∧ BusOp.ofWord 0x8305 = some (.write 0x03 0x05) ∧
  BusOp.ofWord 0x5F00 = some (.read 0x5F) ∧ BusOp.ofWord 0xE0AB = some (.write 0x60 0xAB)

/-- R76, R77, WF4 of R79: the selector codes; the fields of an override entry's ROM word; the word and the entry determine
each other, for every offset the eight-bit field admits; and exactly the words with a code of 0x00 to 0x08, and value 0x00
unless the code is 0x08, are words of an entry. -/
def Obligations.OverrideWordRoundTrip : Prop :=
  ((∀ j : Fin 4, (Selector.ident j).code = BitVec.ofNat 8 j.val) ∧ Selector.nonce.code = 0x04 ∧
    Selector.rand.code = 0x05 ∧ Selector.action.code = 0x06 ∧ Selector.chanHigh.code = 0x07 ∧
    ∀ v : Byte, (Selector.const v).code = 0x08) ∧
  (∀ e : Override, e.offset < 256 → Override.ofWord e.toWord = some e ∧
    (romOffset e.toWord).toNat = e.offset ∧ romCode e.toWord = e.sel.code ∧
    (∀ v : Byte, e.sel = .const v → romValue e.toWord = v) ∧
    ((∀ v : Byte, e.sel ≠ .const v) → romValue e.toWord = 0x00)) ∧
  (∀ (w : BitVec 24) (e : Override), Override.ofWord w = some e → e.toWord = w ∧ e.offset < 256) ∧
  (∀ w : BitVec 24, (∃ e, Override.ofWord w = some e) ↔
    (romCode w).toNat ≤ 0x08 ∧ (romCode w ≠ 0x08 → romValue w = 0x00))

/-- R77 to R79: loading the ROM of a well-formed configuration gives that configuration back, for every one. -/
def Obligations.RomRoundTripOfEveryConfiguration : Prop :=
  ∀ c : WfCfg, c.toCfg.toRom.load = some c

/-- R79, R212 (1): a ROM loads exactly when it meets WF1 to WF10, spelled out on its words; otherwise it is refused, under
the name of a failed check; and what is loaded is what the ROM holds. That the refusal happens at load is the model's
(notes/assumptions/5.md, DEDUCED). -/
def Obligations.IllFormedRomIsRefused : Prop :=
  ∀ r : Rom,
    ((∃ c, r.load = some c) ↔
      -- WF1
      (1 ≤ r.cmd.template.length ∧ r.cmd.template.length ≤ 24) ∧
      (∀ k ∈ [r.grp, r.dup, r.fav], 1 ≤ k.template.length ∧ k.template.length ≤ 30) ∧
      -- WF2, WF3, WF4
      (∀ k ∈ [r.cmd, r.grp, r.dup, r.fav],
        (∀ w ∈ k.overrides, (romOffset w).toNat < k.template.length) ∧
        (k.overrides.map romOffset).Nodup ∧
        ∀ w ∈ k.overrides, (romCode w).toNat ≤ 0x08 ∧ (romCode w ≠ 0x08 → romValue w = 0x00)) ∧
      -- WF5
      (1 ≤ r.chIns ∧ r.chIns ≤ r.cmd.template.length ∧
        ∀ w ∈ r.cmd.overrides, (romOffset w).toNat ≠ r.chIns - 1) ∧
      -- WF6: ID, NONCE, RAND, ACTION, CHAN_HIGH and CONST entries, by their codes
      (wordsOfCodes r.cmd 0x00 0x03 = 4 ∧ wordsOfCodes r.cmd 0x04 0x04 = 1 ∧ wordsOfCodes r.cmd 0x05 0x05 = 1 ∧
        wordsOfCodes r.cmd 0x06 0x06 = 1 ∧ wordsOfCodes r.cmd 0x07 0x07 = 0 ∧ wordsOfCodes r.cmd 0x08 0x08 = 0) ∧
      -- WF7
      (wordsOfCodes r.grp 0x00 0x03 = 2 ∧ wordsOfCodes r.grp 0x04 0x04 = 1 ∧ wordsOfCodes r.grp 0x05 0x05 = 0 ∧
        wordsOfCodes r.grp 0x06 0x06 = 1 ∧ wordsOfCodes r.grp 0x07 0x07 = 1 ∧ wordsOfCodes r.grp 0x08 0x08 = 0) ∧
      -- WF8
      (wordsOfCodes r.dup 0x00 0x03 = 4 ∧ wordsOfCodes r.dup 0x04 0x04 = 1 ∧ wordsOfCodes r.dup 0x05 0x05 = 0 ∧
        wordsOfCodes r.dup 0x06 0x06 = 0 ∧ wordsOfCodes r.dup 0x07 0x07 = 0 ∧ wordsOfCodes r.dup 0x08 0x08 = 8) ∧
      -- WF10
      r.capLen ≤ 32 ∧ r.capOffA < r.capLen ∧ r.capOffB < r.capLen) ∧
    (r.load = none ↔ ∃ f, r.flaw? = some f) ∧ (∀ c, r.load = some c → c.toCfg = r.decode) ∧
    (r.WellFormed = true ↔ r.flaw? = none)

/-! ### The step -/

/-- R54, R60: a write of an opcode to CMD runs the decoded command on the state as it stands; `withFetchWord` places such
a write. -/
def Obligations.StepRunsTheDecodedCommand : Prop :=
  (∀ (s : State) (v : Byte) (i : Instr) (rest : List BusOp), s.bus = .write 0x00 v :: rest →
    decode v = .command i → step s = exec i { s with bus := rest }) ∧
  (∀ (s : State) (i : Instr), step (s.withFetchWord 8 (encode i).toNat) = exec i s)

/-- R181, R72: each of the 245 reserved opcodes writes ILLEGAL_CMD to ERR and changes nothing else. -/
def Obligations.ReservedOpcodeOnlySetsErr : Prop :=
  ((List.range 256).filter fun n => BitVec.ofNat 8 n ∉ opcodes).length = 245 ∧
  ∀ (s : State) (v : Byte) (rest : List BusOp), s.bus = .write 0x00 v :: rest → v ∉ opcodes →
    step s = .next { s with bus := rest, err := 1 }

/-- R52: what a bus read returns at every address, and that the read changes no state. -/
def Obligations.BusReadFollowsTheRegisterMap : Prop :=
  (∀ (s : State) (a : Addr) (rest : List BusOp), s.bus = .read a :: rest →
    step s = .next { s with bus := rest, observed := s.observed ++ [s.busRead a] }) ∧
  ∀ s : State,
    s.busRead 0x00 = 0x00 ∧
    ((s.busRead 0x01).extractLsb' 0 4 = s.err ∧ (s.busRead 0x01).getLsbD 4 = s.frameValid ∧
      (s.busRead 0x01).extractLsb' 5 3 = 0) ∧
    s.busRead 0x02 = s.action ∧ s.busRead 0x03 = s.mask ∧
    s.busRead 0x04 = s.ident[0] ∧ s.busRead 0x05 = s.ident[1] ∧ s.busRead 0x06 = s.ident[2] ∧
    s.busRead 0x07 = s.ident[3] ∧ s.busRead 0x08 = s.plen ∧
    s.busRead 0x09 ++ s.busRead 0x0A = s.crc ∧ s.busRead 0x0B = s.crcIn ∧
    ((s.lstate = .idle → (s.busRead 0x0C).extractLsb' 0 2 = 0) ∧
      (s.lstate = .searching → (s.busRead 0x0C).extractLsb' 0 2 = 1) ∧
      (s.lstate = .capturing → (s.busRead 0x0C).extractLsb' 0 2 = 2) ∧ (s.busRead 0x0C).getLsbD 2 = s.prefixValid ∧
      (s.busRead 0x0C).getLsbD 3 = s.fullValid ∧ (s.busRead 0x0C).extractLsb' 4 4 = 0) ∧
    s.busRead 0x0D = s.rxlen ∧ s.busRead 0x0E = s.syncPos ∧ s.busRead 0x0F = s.lastNonce ∧
    s.busRead 0x10 = s.lastRand ∧ s.busRead 0x11 = s.lid[0] ∧ s.busRead 0x12 = s.lid[1] ∧
    s.busRead 0x13 = s.lid[2] ∧ s.busRead 0x14 = s.lid[3] ∧
    (∀ a : Addr, 0x15 ≤ a.toNat → a.toNat ≤ 0x1F → s.busRead a = 0x00) ∧
    (∀ i : Fin 32, s.busRead (BitVec.ofNat 7 (0x20 + i.val)) = s.payload[i]) ∧
    (∀ i : Fin 32, s.busRead (BitVec.ofNat 7 (0x40 + i.val)) = s.frame[i]) ∧
    (∀ i : Fin 32, s.busRead (BitVec.ofNat 7 (0x60 + i.val)) = s.rxbuf[i])

/-- R53: the effect of a bus write at every address: the register takes the byte, a write to CMD starts the command of its
opcode, and a write to an R or reserved address changes nothing. -/
def Obligations.BusWriteFollowsTheRegisterMap : Prop :=
  ∀ (s : State) (v : Byte) (rest : List BusOp),
    (s.bus = .write 0x02 v :: rest → step s = .next { s with bus := rest, action := v }) ∧
    (s.bus = .write 0x03 v :: rest → step s = .next { s with bus := rest, mask := v }) ∧
    (∀ j : Fin 4, s.bus = .write (BitVec.ofNat 7 (0x04 + j.val)) v :: rest →
      step s = .next { s with bus := rest, ident := s.ident.set j v }) ∧
    (s.bus = .write 0x08 v :: rest → step s = .next { s with bus := rest, plen := v }) ∧
    (s.bus = .write 0x09 v :: rest → step s = .next { s with bus := rest, crc := v ++ s.crc.extractLsb' 0 8 }) ∧
    (s.bus = .write 0x0A v :: rest → step s = .next { s with bus := rest, crc := s.crc.extractLsb' 8 8 ++ v }) ∧
    (s.bus = .write 0x0B v :: rest → step s = .next { s with bus := rest, crcIn := v }) ∧
    (s.bus = .write 0x0D v :: rest → step s = .next { s with bus := rest, rxlen := v }) ∧
    (∀ i : Fin 32, s.bus = .write (BitVec.ofNat 7 (0x20 + i.val)) v :: rest →
      step s = .next { s with bus := rest, payload := s.payload.set i v }) ∧
    (∀ i : Fin 32, s.bus = .write (BitVec.ofNat 7 (0x60 + i.val)) v :: rest →
      step s = .next { s with bus := rest, rxbuf := s.rxbuf.set i v }) ∧
    (∀ i : Instr, s.bus = .write 0x00 v :: rest → decode v = .command i → step s = exec i { s with bus := rest }) ∧
    (s.bus = .write 0x00 v :: rest → decode v = .illegal v → step s = .next { s with bus := rest, err := 1 }) ∧
    (∀ a : Addr, a ≠ 0x00 → rwAddress a = false → s.bus = .write a v :: rest →
      step s = .next { s with bus := rest })

/-- R63, R53, R51: a read returns the value left by the latest earlier write: after a write to any address but CMD, that
address reads as the byte written where it is RW, and every other address reads as before. -/
def Obligations.ReadAfterWriteOfAnyTwoAddresses : Prop :=
  ∀ (s : State) (a b : Addr) (v : Byte) (rest : List BusOp), s.bus = .write a v :: rest → a ≠ 0x00 →
    ∃ t, step s = .next t ∧ t.busRead b = if b = a ∧ rwAddress a = true then v else s.busRead b

/-- R41, R210: the value of every piece of state after reset, in `State.reset` and after a reset step from any state; the
configuration and the random input are not state and keep what they are. -/
def Obligations.ResetGivesTheTableValues : Prop :=
  State.reset.AtResetValues ∧
  ∀ (s : State) (rest : List BusOp), s.bus = .reset :: rest →
    ∃ t, step s = .next t ∧ t.AtResetValues ∧ t.cfg = s.cfg ∧ t.draws = s.draws ∧ t.drawIndex = s.drawIndex

/-- R33, R60, R219: a run of any length never faults and is never refused; each step takes one pending transaction, each
read adds one observed value, and the configuration stays (R40). With nothing pending the machine stays as it is: the
model's choice, notes/assumptions/1.md. -/
def Obligations.RunsTakeOneTransactionAStep : Prop :=
  ∀ (n : Nat) (s : State), ∃ t, Host.Core.run Sys2Proof.core n s = .next t ∧ t.bus = s.bus.drop n ∧ t.cfg = s.cfg ∧
    t.observed.length = s.observed.length + ((s.bus.take n).filter fun op => !op.isNotRead).length

/-- R61, R52: reads never have side effects: a run and the same run without its read transactions leave the same state,
up to what the reads observed. -/
def Obligations.ReadTransactionsAreInvisible : Prop :=
  ∀ s : State, ∃ t u,
    Host.Core.run Sys2Proof.core s.bus.length s = .next t ∧
    Host.Core.run Sys2Proof.core (s.bus.filter BusOp.isNotRead).length
      { s with bus := s.bus.filter BusOp.isNotRead } = .next u ∧
    u.observed = s.observed ∧ t = { u with observed := t.observed }

/-! ### The checksum generator -/

/-- R103: CRC_INIT. -/
def Obligations.CrcInitSetsTheInitialValue : Prop :=
  ∀ s : State, exec .crcInit s = .next { s with crc := 0xFFFF, err := 0 } ∧
    ∃ t, exec .crcInit s = .next t ∧ t.busRead 0x09 = 0xFF ∧ t.busRead 0x0A = 0xFF ∧ exec .crcInit t = .next t

/-- R104: CRC_UPDATE applies one crc_step and consumes nothing; CRC_INIT and then one CRC_UPDATE per byte leave CRC16 of
the bytes. -/
def Obligations.CrcUpdateAppliesOneStep : Prop :=
  (∀ s : State, exec .crcUpdate s = .next { s with crc := crcStep s.crc s.crcIn, err := 0 }) ∧
  crcStep 0x0000 0x00 = 0x0000 ∧ crcStep 0xFFFF 0x00 = 0x5B1F ∧
  (∀ (s : State) (xs : List Byte), ∃ t u, exec .crcInit s = .next t ∧ crcFeed t xs = .next u ∧ u.crc = crc16 xs)

/-- R105: CRC_PAYLOAD. -/
def Obligations.CrcPayloadChecksumsThePayload : Prop :=
  ∀ s : State,
    (s.plen.toNat ≤ 32 →
      exec .crcPayload s = .next { s with crc := crc16 (s.payload.toList.take s.plen.toNat), err := 0 }) ∧
    (32 < s.plen.toNat → exec .crcPayload s = .next { s with err := 6 }) ∧
    (s.plen = 0 → exec .crcPayload s = .next { s with crc := 0xFFFF, err := 0 }) ∧
    (s.plen = 2 → s.payload[0] = 0xAB → s.payload[1] = 0xCD →
      exec .crcPayload s = .next { s with crc := 0xDAE3, err := 0 })

/-- R102 (derived there from R100): the table form computes the same step. -/
def Obligations.CrcTableFormEqualsBitForm : Prop :=
  ∀ (c : Word16) (b : Byte), crcStep c b = (c <<< 8) ^^^ crcTable (c.extractLsb' 8 8 ^^^ b)

/-- R109 (derived there from R100 and R56): a byte list followed by its checksum, high byte first, has checksum 0. -/
def Obligations.ChecksumResidueIsZero : Prop :=
  ∀ xs : List Byte, crc16 (xs ++ [(crc16 xs).extractLsb' 8 8, (crc16 xs).extractLsb' 0 8]) = 0x0000

/-- R108 (derived there from R100): two lists of one length that differ in exactly one byte have different checksums. -/
def Obligations.SingleByteChangeChangesTheChecksum : Prop :=
  ∀ (pre post : List Byte) (a b : Byte), a ≠ b → crc16 (pre ++ a :: post) ≠ crc16 (pre ++ b :: post)

/-! ### The frame encoder -/

/-- R14, R139: the channel list is ascending, holds exactly the numbers of the selected channels, and its last entry is
the highest channel, 0x00 standing for none (that 0x00 is the spec's own decision D12, notes/assumptions/8.md). -/
def Obligations.ChannelHelpersFollowTheMask : Prop :=
  ∀ m : Byte,
    (chlist m).Pairwise (fun a b => a.toNat < b.toNat) ∧
    (∀ i : Nat, i < 6 → (m.getLsbD i = true ↔ BitVec.ofNat 8 (i + 1) ∈ chlist m)) ∧
    (∀ b ∈ chlist m, 1 ≤ b.toNat ∧ b.toNat ≤ 6) ∧
    (chlist m).length = popcount6 m ∧ popcount6 m ≤ 6 ∧
    (∀ i : Nat, i < 6 → m.getLsbD i = true → (∀ j : Nat, i < j → j < 6 → m.getLsbD j = false) →
      chanHigh m = BitVec.ofNat 8 (i + 1)) ∧
    ((∀ i : Nat, i < 6 → m.getLsbD i = false) → chanHigh m = 0x00)

/-- R122, R193, R194: BUILD and ENCODE check ACTION first, then MASK[7:6]; on an error only ERR changes and no draw is
taken. (OVERFLOW cannot occur: the next statements.) -/
def Obligations.BadOperandsOnlySetErr : Prop :=
  ∀ (s : State) (i : Instr), i = .build ∨ i = .encode →
    (9 < s.action.toNat → exec i s = .next { s with err := 2 }) ∧
    (s.action.toNat ≤ 9 → s.mask.extractLsb' 6 2 ≠ 0 → exec i s = .next { s with err := 3 })

/-- R132, R123, R137: for every action and every mask with bits 7:6 clear (the empty mask too), BUILD succeeds: two draws,
the payload length, PAYLOAD[P:32) and all other state unchanged. -/
def Obligations.BuildCompletesOnValidOperands : Prop :=
  ∀ s : State, s.ValidOperands →
    ∃ (t : State) (k : Kind), exec .build s = .next t ∧
      ((s.action.toNat ≤ 5 ∧ k = .cmd) ∨ (s.action = 6 ∧ k = .fav) ∨ (s.action = 7 ∧ k = .grp) ∨
        (s.action = 8 ∧ k = .grp) ∨ (s.action = 9 ∧ k = .dup)) ∧
      t = { s with
            payload := t.payload
            plen := t.plen
            lastNonce := s.nextDraw
            lastRand := s.afterDraw.nextDraw
            draws := s.draws.tail.tail
            drawIndex := s.drawIndex + 2
            err := 0 } ∧
      t.plen.toNat = (s.cfg.toCfg.kcfg k).length + (if k = .cmd then popcount6 s.mask else 0) ∧
      t.plen.toNat ≤ 30 ∧
      (∀ i : Fin 32, t.plen.toNat ≤ i.val → t.payload[i] = s.payload[i])

/-- R124 to R127, R139: the payload of a Command BUILD, byte by byte: every override at its (shifted) offset, every other
template byte unchanged, the count byte grown by the number of channels, and the ascending channel list at CH_INS. -/
def Obligations.CommandPayloadLayout : Prop :=
  ∀ s : State, s.ValidOperands → s.action.toNat ≤ 5 →
    ∃ t, exec .build s = .next t ∧
      (∀ e ∈ s.cfg.toCfg.cmd.overrides,
        bufByte t.payload (wirePayloadIndex s.cfg.toCfg (popcount6 s.mask) e.offset) =
          s.selectorByte t.lastNonce t.lastRand e.sel) ∧
      (∀ o, o < s.cfg.toCfg.cmd.length → o ≠ s.cfg.toCfg.chIns - 1 →
        (∀ e ∈ s.cfg.toCfg.cmd.overrides, e.offset ≠ o) →
        bufByte t.payload (wirePayloadIndex s.cfg.toCfg (popcount6 s.mask) o) =
          s.cfg.toCfg.cmd.template.getD o 0x00) ∧
      bufByte t.payload (s.cfg.toCfg.chIns - 1) =
        s.cfg.toCfg.cmd.template.getD (s.cfg.toCfg.chIns - 1) 0x00 + BitVec.ofNat 8 (popcount6 s.mask) ∧
      (∀ j, j < popcount6 s.mask →
        bufByte t.payload (s.cfg.toCfg.chIns + j) = (chlist s.mask).getD j 0x00)

/-- R124, R125, R128 to R130: the payload of a Group, Duplicate or Store-favorite BUILD, byte by byte: the kind's template
with every override at its offset, and no inflation. -/
def Obligations.FixedLengthPayloadLayout : Prop :=
  ∀ (s : State) (k : Kind), s.ValidOperands →
    (s.action = 6 ∧ k = .fav) ∨ (s.action = 7 ∧ k = .grp) ∨ (s.action = 8 ∧ k = .grp) ∨ (s.action = 9 ∧ k = .dup) →
    ∃ t, exec .build s = .next t ∧
      t.plen.toNat = (s.cfg.toCfg.kcfg k).length ∧
      (∀ e ∈ (s.cfg.toCfg.kcfg k).overrides,
        bufByte t.payload e.offset = s.selectorByte t.lastNonce t.lastRand e.sel) ∧
      (∀ o, o < (s.cfg.toCfg.kcfg k).length → (∀ e ∈ (s.cfg.toCfg.kcfg k).overrides, e.offset ≠ o) →
        bufByte t.payload o = (s.cfg.toCfg.kcfg k).template.getD o 0x00)

/-- R122, R14 with the spec's own decision D12 (notes/assumptions/8.md): join and remove with an empty mask succeed, and
the channel byte is 0x00. -/
def Obligations.EmptyMaskGroupWritesZeroChannel : Prop :=
  ∀ s : State, s.action = 7 ∨ s.action = 8 → s.mask = 0x00 →
    ∃ t, exec .build s = .next t ∧ t.err = 0 ∧
      ∀ e ∈ s.cfg.toCfg.grp.overrides, e.sel = .chanHigh → bufByte t.payload e.offset = 0x00

/-- R134, R133: FINALIZE: the frame of PAYLOAD[0:PLEN), or OVERFLOW above 30 with nothing else changed. -/
def Obligations.FinalizeBuildsTheFrame : Prop :=
  ∀ s : State,
    (s.plen.toNat ≤ 30 → ∃ t, exec .finalize s = .next t ∧
      t = { s with frame := t.frame, frameValid := true, err := 0 } ∧
      FrameLayout s.cfg.toCfg.preamble s.plen.toNat s.payload t.frame) ∧
    (30 < s.plen.toNat → exec .finalize s = .next { s with err := 5 }) ∧
    (s.plen = 0 → ∃ t, exec .finalize s = .next t ∧
      t.frame.toList = List.replicate 30 s.cfg.toCfg.preamble ++ [0xFF, 0xFF])

/-- R134, R215: FINALIZE again on the state it left gives that state: it takes no draw and reads neither FRAME nor CRC. -/
def Obligations.FinalizeAgainGivesTheSameFrame : Prop :=
  ∀ s t : State, exec .finalize s = .next t → exec .finalize t = .next t ∧
    ∀ (c : Word16) (f : Buf) (u : State), exec .finalize { s with crc := c, frame := f } = .next u →
      s.plen.toNat ≤ 30 → u = { t with crc := c }

/-- R135: ENCODE is BUILD and then FINALIZE on the payload just written, in one command; an error of BUILD ends it, and
FINALIZE cannot fail after a successful BUILD. -/
def Obligations.EncodeIsBuildThenFinalize : Prop :=
  ∀ s t : State, exec .build s = .next t →
    (t.err ≠ 0 → exec .encode s = .next t ∧ t = { s with err := t.err }) ∧
    (t.err = 0 → ∃ u, exec .encode s = .next u ∧ exec .finalize t = .next u ∧ u.err = 0 ∧ u.frameValid = true)

/-- R135, R136: for every action and every mask with bits 7:6 clear, ENCODE succeeds, and FRAME is the frame of the
payload it wrote; all other state is unchanged. -/
def Obligations.EncodeCompletesOnValidOperands : Prop :=
  ∀ s : State, s.ValidOperands →
    ∃ t, exec .encode s = .next t ∧
      t = { s with
            payload := t.payload
            plen := t.plen
            lastNonce := s.nextDraw
            lastRand := s.afterDraw.nextDraw
            frame := t.frame
            frameValid := true
            draws := s.draws.tail.tail
            drawIndex := s.drawIndex + 2
            err := 0 } ∧
      t.plen.toNat ≤ 30 ∧ FrameLayout s.cfg.toCfg.preamble t.plen.toNat t.payload t.frame

/-- R138 (derived there): the bytes of a Command frame after the channel list stand at wire offsets that do not depend on
the mask. -/
def Obligations.BytesAfterTheChannelListDoNotMove : Prop :=
  ∀ (s t₁ t₂ : State) (m₁ m₂ : Byte), s.action.toNat ≤ 5 → m₁.toNat < 64 → m₂.toNat < 64 →
    exec .encode { s with mask := m₁ } = .next t₁ → exec .encode { s with mask := m₂ } = .next t₂ →
    ∀ o, s.cfg.toCfg.chIns ≤ o → o < s.cfg.toCfg.cmd.length →
      bufByte t₁.frame (30 - s.cfg.toCfg.cmd.length + o) = bufByte t₂.frame (30 - s.cfg.toCfg.cmd.length + o)

/-- R140 (derived there): two BUILDs with the same inputs differ only at NONCE and RAND offsets, and only where the draws
differ. -/
def Obligations.OnlyDrawnBytesVary : Prop :=
  ∀ (s t₁ t₂ : State) (d₁ d₂ : List Byte) (n₁ n₂ : Nat) (a : BlindAction),
    s.ValidOperands → actionOf s.action = some a →
    exec .build { s with draws := d₁, drawIndex := n₁ } = .next t₁ →
    exec .build { s with draws := d₂, drawIndex := n₂ } = .next t₂ →
    t₁.plen = t₂.plen ∧
    (∀ i, i < 32 → bufByte t₁.payload i ≠ bufByte t₂.payload i →
      ∃ e ∈ (s.cfg.toCfg.kcfg a.kind).overrides, (e.sel = .nonce ∨ e.sel = .rand) ∧
        i = payloadIndex s.cfg.toCfg a.kind (popcount6 s.mask) e.offset) ∧
    (t₁.lastNonce = t₂.lastNonce → t₁.lastRand = t₂.lastRand → t₁.payload = t₂.payload)

/-- R129: a Duplicate payload depends on no MASK channel bit. -/
def Obligations.DuplicateIgnoresTheChannels : Prop :=
  ∀ (s t₁ t₂ : State) (m₁ m₂ : Byte), s.action = 9 → m₁.toNat < 64 → m₂.toNat < 64 →
    exec .build { s with mask := m₁ } = .next t₁ → exec .build { s with mask := m₂ } = .next t₂ →
    t₁.payload = t₂.payload ∧ t₁.plen = t₂.plen

/-- R128: a Group payload depends on the mask through its highest channel only; the lower ones are dropped. -/
def Obligations.GroupEncodesOnlyTheHighestChannel : Prop :=
  ∀ (s t₁ t₂ : State) (m₁ m₂ : Byte), s.action = 7 ∨ s.action = 8 → m₁.toNat < 64 → m₂.toNat < 64 →
    hsb6 m₁ = hsb6 m₂ →
    exec .build { s with mask := m₁ } = .next t₁ → exec .build { s with mask := m₂ } = .next t₂ →
    t₁.payload = t₂.payload ∧ t₁.plen = t₂.plen ∧ t₁.err = 0

/-- R123, R35, R39: a successful BUILD or ENCODE takes exactly two draws and shows them in LAST_NONCE and LAST_RAND; no
other command and no error takes a draw or changes them. -/
def Obligations.DrawsAreTakenByBuildsOnly : Prop :=
  ∀ (i : Instr) (s t : State), exec i s = .next t →
    ((i = .build ∨ i = .encode) ∧ t.err = 0 ∧ t.draws = s.draws.tail.tail ∧ t.drawIndex = s.drawIndex + 2 ∧
      t.lastNonce = s.nextDraw ∧ t.lastRand = s.afterDraw.nextDraw) ∨
    (¬((i = .build ∨ i = .encode) ∧ t.err = 0) ∧ t.draws = s.draws ∧ t.drawIndex = s.drawIndex ∧
      t.lastNonce = s.lastNonce ∧ t.lastRand = s.lastRand)

/-! ### The matcher -/

/-- R163: LEARN_START. -/
def Obligations.LearnStartClearsTheLearnedRemote : Prop :=
  ∀ s : State,
    exec .learnStart s = .next
      { s with
        lstate := .searching, lid := #v[0x00, 0x00, 0x00, 0x00], prefixValid := false, fullValid := false,
        syncPos := 0x00, err := 0 } ∧
    ∃ t, exec .learnStart s = .next t ∧ t.busRead 0x0C = 0x01

/-- R164: LEARN_CANCEL. -/
def Obligations.LearnCancelKeepsTheLearnedRemote : Prop :=
  ∀ s : State,
    exec .learnCancel s = .next { s with lstate := .idle, err := 0 } ∧
    (s.busRead 0x0C = 0x06 → ∃ t, exec .learnCancel s = .next t ∧ t.busRead 0x0C = 0x04)

/-- R165: SCAN: WRONG_STATE first, then BAD_LEN; an accepted match, no accepted match; and the scenario of the source. -/
def Obligations.ScanFollowsTheStream : Prop :=
  ∀ s : State,
    (s.lstate ≠ .searching → exec .scan s = .next { s with err := 7 }) ∧
    (s.lstate = .searching → 32 < s.rxlen.toNat → exec .scan s = .next { s with err := 6 }) ∧
    (s.lstate = .searching → s.rxlen.toNat ≤ 32 → scanStream (s.rxbuf.toList.take s.rxlen.toNat) = none →
      exec .scan s = .next { s with err := 0 }) ∧
    (∀ p, s.lstate = .searching → s.rxlen.toNat ≤ 32 →
      scanStream (s.rxbuf.toList.take s.rxlen.toNat) = some p →
      exec .scan s = .next
        { s with
          lid := #v[bufByte s.rxbuf (p - 2), bufByte s.rxbuf (p - 1), s.lid[2], s.lid[3]]
          prefixValid := true, syncPos := BitVec.ofNat 8 p, lstate := .capturing, err := 0 }) ∧
    (s.lstate = .searching → s.rxlen.toNat ≤ 5 → exec .scan s = .next { s with err := 0 }) ∧
    (s.lstate = .searching → s.rxlen = 6 → s.rxbuf.toList.take 6 = [0xAB, 0xCD, 0xC0, 0x11, 0x00, 0x05] →
      exec .scan s = .next
        { s with
          lid := #v[0xAB, 0xCD, s.lid[2], s.lid[3]], prefixValid := true, syncPos := 2, lstate := .capturing,
          err := 0 })

/-- R161, R167 (derived there), R30, R32: an accepted match is a real one: SYNC_PAT stands at SYNC_POS, inside the stream
and with two bytes before it, and those are LID0 and LID1. -/
def Obligations.AcceptedMatchIsThePattern : Prop :=
  ∀ s t : State, exec .scan s = .next t → t.lstate = .capturing → s.lstate = .searching →
    2 ≤ t.syncPos.toNat ∧ t.syncPos.toNat + 4 ≤ s.rxlen.toNat ∧ t.syncPos.toNat ≤ 28 ∧
    bufByte s.rxbuf t.syncPos.toNat = 0xC0 ∧ bufByte s.rxbuf (t.syncPos.toNat + 1) = 0x11 ∧
    bufByte s.rxbuf (t.syncPos.toNat + 2) = 0x00 ∧ bufByte s.rxbuf (t.syncPos.toNat + 3) = 0x05 ∧
    t.lid[0] = bufByte s.rxbuf (t.syncPos.toNat - 2) ∧ t.lid[1] = bufByte s.rxbuf (t.syncPos.toNat - 1)

/-- R167 (derived there): a scan that accepts at p has read exactly the bytes up to p + 3. -/
def Obligations.ScanReadsNothingAfterTheMatch : Prop :=
  ∀ (b c : List Byte) (p : Nat), scanStream b = some p →
    scanStream (b.take (p + 4) ++ c) = some p ∧ ∀ n, n < p + 4 → scanStream (b.take n) = none

/-- R162, R165: a pattern after at least two bytes, none of them 0xC0, is accepted where it stands, whatever follows; and
the scan goes on after broken partial matches and discarded copies of the pattern: after any two or more bytes in which it
accepts nothing, the last of which leaves no partial match open (it is not 0xC0, 0x11 or 0x00), the pattern is accepted
where it stands. -/
def Obligations.ScanFindsACleanPattern : Prop :=
  (∀ pre post : List Byte, 2 ≤ pre.length → (∀ b ∈ pre, b ≠ 0xC0) →
    scanStream (pre ++ [0xC0, 0x11, 0x00, 0x05] ++ post) = some pre.length) ∧
  (∀ (pre post : List Byte) (b : Byte), 1 ≤ pre.length → scanStream (pre ++ [b]) = none →
    b ≠ 0xC0 → b ≠ 0x11 → b ≠ 0x00 →
    scanStream (pre ++ [b] ++ [0xC0, 0x11, 0x00, 0x05] ++ post) = some (pre.length + 1))

/-- R168 (derived there), R162: restart loss: the byte that breaks a partial match is not compared again, so a pattern
whose 0xC0 directly follows a partial match is missed. -/
def Obligations.PatternAfterAPartialMatchIsMissed : Prop :=
  ∀ pre post part : List Byte, (∀ b ∈ pre, b ≠ 0xC0) → (∀ b ∈ post, b ≠ 0xC0) →
    part = [0xC0] ∨ part = [0xC0, 0x11] ∨ part = [0xC0, 0x11, 0x00] →
    scanStream (pre ++ part ++ [0xC0, 0x11, 0x00, 0x05] ++ post) = none

/-- R166: CAPTURE: WRONG_STATE first, then BAD_LEN; a command-length frame gives LID2 and LID3; any other is ignored. -/
def Obligations.CaptureTakesACommandLengthFrame : Prop :=
  ∀ s : State,
    (s.lstate ≠ .capturing → exec .capture s = .next { s with err := 7 }) ∧
    (s.lstate = .capturing → 32 < s.rxlen.toNat → exec .capture s = .next { s with err := 6 }) ∧
    (s.lstate = .capturing → s.rxlen.toNat ≤ 32 → s.rxlen.toNat ≠ s.cfg.toCfg.capLen →
      exec .capture s = .next { s with err := 0 }) ∧
    (s.lstate = .capturing → s.rxlen.toNat = s.cfg.toCfg.capLen →
      exec .capture s = .next
        { s with
          lid := #v[s.lid[0], s.lid[1], bufByte s.rxbuf s.cfg.toCfg.capOffA, bufByte s.rxbuf s.cfg.toCfg.capOffB]
          fullValid := true, err := 0 })

/-- R160: every learner transition, and that no other exists. -/
def Obligations.LearnerTransitionsFollowTheTable : Prop :=
  ∀ (i : Instr) (s t : State), exec i s = .next t →
    (i = .learnStart → t.lstate = .searching ∧ (∀ j : Fin 4, t.lid[j] = 0x00) ∧ t.prefixValid = false ∧
      t.fullValid = false) ∧
    (i = .learnCancel → t.lstate = .idle ∧ t.lid = s.lid ∧ t.prefixValid = s.prefixValid ∧
      t.fullValid = s.fullValid) ∧
    (i = .scan → s.lstate = .searching →
      (t.lstate = .capturing ∧ t.prefixValid = true ∧
        ∃ p, s.rxlen.toNat ≤ 32 ∧ scanStream (s.rxbuf.toList.take s.rxlen.toNat) = some p ∧
          t.syncPos.toNat = p ∧ t.lid[0] = bufByte s.rxbuf (p - 2) ∧ t.lid[1] = bufByte s.rxbuf (p - 1)) ∨
      ((s.rxlen.toNat ≤ 32 → scanStream (s.rxbuf.toList.take s.rxlen.toNat) = none) ∧ t = { s with err := t.err })) ∧
    (i = .capture → s.lstate = .capturing → t.lstate = .capturing ∧
      (s.rxlen.toNat = s.cfg.toCfg.capLen → t.fullValid = true ∧
        t.lid[2] = bufByte s.rxbuf s.cfg.toCfg.capOffA ∧ t.lid[3] = bufByte s.rxbuf s.cfg.toCfg.capOffB) ∧
      (s.rxlen.toNat ≠ s.cfg.toCfg.capLen → t = { s with err := t.err })) ∧
    (i = .scan → s.lstate ≠ .searching → t = { s with err := 7 }) ∧
    (i = .capture → s.lstate ≠ .capturing → t = { s with err := 7 }) ∧
    (t.lstate ≠ s.lstate → i = .learnStart ∨ i = .learnCancel ∨ (i = .scan ∧ s.lstate = .searching))

/-! ### Control, and rules of the whole machine -/

/-- R180: NOP. -/
def Obligations.NopOnlyClearsErr : Prop :=
  ∀ s : State, exec .nop s = .next { s with err := 0 }

/-- R194: when a command raises an error, ERR is set to the code and nothing else changes: for each instruction, and for
every CMD write, the reserved opcodes' too (its transaction is used up). -/
def Obligations.ErrorChangesNothingButErr : Prop :=
  (∀ (i : Instr) (s t : State), exec i s = .next t → t.err ≠ 0 → t = { s with err := t.err }) ∧
  (∀ (s t : State) (v : Byte) (rest : List BusOp), s.bus = .write 0x00 v :: rest → step s = .next t → t.err ≠ 0 →
    t = { s with bus := rest, err := t.err })

/-- R190, R193, R191: no command faults or is refused, and the code it ends with is one that R191 lists for it. -/
def Obligations.CommandsEndWithTheirOwnCodes : Prop :=
  ∀ (i : Instr) (s : State), ∃ t, exec i s = .next t ∧
    (t.err = 0 ∨
      ((i = .build ∨ i = .encode) ∧ (t.err = 2 ∨ t.err = 3)) ∨
      (i = .finalize ∧ t.err = 5) ∨ (i = .crcPayload ∧ t.err = 6) ∨
      ((i = .scan ∨ i = .capture) ∧ (t.err = 6 ∨ t.err = 7)))

/-- R21, R22, R23, R28, R29, R40: no command writes the registers the host owns, the configuration, or what the host has
pending or observed. -/
def Obligations.CommandsLeaveTheHostsRegisters : Prop :=
  ∀ (i : Instr) (s t : State), exec i s = .next t →
    t.ident = s.ident ∧ t.mask = s.mask ∧ t.action = s.action ∧ t.crcIn = s.crcIn ∧ t.rxbuf = s.rxbuf ∧
    t.rxlen = s.rxlen ∧ t.cfg = s.cfg ∧ t.bus = s.bus ∧ t.observed = s.observed

/-- R24 to R32, R217: each unit writes its own registers only: the CRC accumulator, the payload, the frame and the
learner's registers change by their own commands and by no other. -/
def Obligations.UnitsWriteTheirOwnRegistersOnly : Prop :=
  ∀ (i : Instr) (s t : State), exec i s = .next t →
    (i ≠ .crcInit → i ≠ .crcUpdate → i ≠ .crcPayload → t.crc = s.crc) ∧
    (i ≠ .build → i ≠ .encode → t.payload = s.payload ∧ t.plen = s.plen ∧ t.lastNonce = s.lastNonce ∧
      t.lastRand = s.lastRand) ∧
    (i ≠ .finalize → i ≠ .encode → t.frame = s.frame ∧ t.frameValid = s.frameValid) ∧
    (i ≠ .learnStart → i ≠ .scan → i ≠ .capture →
      t.lid = s.lid ∧ t.prefixValid = s.prefixValid ∧ t.fullValid = s.fullValid ∧ t.syncPos = s.syncPos)

/-- R38: how the flags are set, cleared and read. -/
def Obligations.FlagsChangeOnlyAsStated : Prop :=
  ∀ (s t : State) (op : BusOp) (rest : List BusOp), s.bus = op :: rest → step s = .next t →
    (t.err ≠ s.err → op = .reset ∨ ∃ v, op = .write 0x00 v) ∧
    (∀ (v : Byte) (e : BitVec 4), op = .write 0x00 v → step { s with err := e } = .next t) ∧
    (s.frameValid = false → t.frameValid = true → (op = .write 0x00 0x01 ∨ op = .write 0x00 0x03) ∧ t.err = 0) ∧
    (op = .write 0x00 0x01 ∨ op = .write 0x00 0x03 → t.err = 0 → t.frameValid = true) ∧
    (s.frameValid = true → t.frameValid = false → op = .reset) ∧
    (s.prefixValid = false → t.prefixValid = true → op = .write 0x00 0x22 ∧ s.lstate = .searching ∧
      t.lstate = .capturing ∧ t.err = 0) ∧
    (op = .write 0x00 0x22 → s.lstate = .searching → t.lstate = .capturing → t.prefixValid = true) ∧
    (s.prefixValid = true → t.prefixValid = false → op = .write 0x00 0x20 ∨ op = .reset) ∧
    (s.fullValid = false → t.fullValid = true → op = .write 0x00 0x23 ∧ s.lstate = .capturing ∧
      s.rxlen.toNat = s.cfg.toCfg.capLen ∧ t.err = 0) ∧
    (op = .write 0x00 0x23 → t.err = 0 → s.rxlen.toNat = s.cfg.toCfg.capLen → t.fullValid = true) ∧
    (s.fullValid = true → t.fullValid = false → op = .write 0x00 0x20 ∨ op = .reset) ∧
    (op = .write 0x00 0x20 ∨ op = .reset → t.prefixValid = false ∧ t.fullValid = false)

/-- R41, R191, R30, R26: the invariant holds at reset. -/
def Obligations.InvariantHoldsAtReset : Prop := State.reset.Inv

/-- R191 and I10 (reserved codes are never produced), R30 to R32 (the learner's registers), R26 and R136 (FRAME is a
finalized frame once FRAME_VALID is 1): every step keeps the invariant. -/
def Obligations.EveryStepKeepsTheInvariant : Prop :=
  ∀ s t : State, s.Inv → step s = .next t → t.Inv

/-- R219: every run, of any transactions, with any draws and any well-formed configuration, from the reset state is safe:
no step stops, and the invariant holds after it. -/
def Obligations.EveryRunFromResetIsSafe : Prop :=
  ∀ (n : Nat) (ops : List BusOp) (ds : List Byte) (k : Nat) (c : WfCfg),
    SafeRun n { State.reset with cfg := c, bus := ops, draws := ds, drawIndex := k }

/-! ### The host's pseudo-instructions -/

/-- R83: every list of at most 32 bytes has an LDPAY and an LDRX; running it leaves the bytes in the buffer from index 0
on, their number in the length register, and all else as it was. -/
def Obligations.LoadPseudosFillTheBuffers : Prop :=
  ∀ xs : List Byte, xs.length ≤ 32 →
    (∃ ys : List Stmt, ldPay xs = some ys ∧
      ∀ (s : State) (rest : List BusOp), s.bus = ys.map Stmt.op ++ rest →
        ∃ t, Host.Core.run Sys2Proof.core (xs.length + 1) s = .next t ∧
          t = { s with bus := rest, payload := t.payload, plen := BitVec.ofNat 8 xs.length } ∧
          t.payload.toList = xs ++ s.payload.toList.drop xs.length) ∧
    (∃ ys : List Stmt, ldRx xs = some ys ∧
      ∀ (s : State) (rest : List BusOp), s.bus = ys.map Stmt.op ++ rest →
        ∃ t, Host.Core.run Sys2Proof.core (xs.length + 1) s = .next t ∧
          t = { s with bus := rest, rxbuf := t.rxbuf, rxlen := BitVec.ofNat 8 xs.length } ∧
          t.rxbuf.toList = xs ++ s.rxbuf.toList.drop xs.length)

/-- R83: LOOPBACK delivers the frame to the receive side. -/
def Obligations.LoopbackDeliversTheFrame : Prop :=
  ∀ (s : State) (rest : List BusOp), s.bus = (loopback s.frame).map Stmt.op ++ rest →
    Host.Core.run Sys2Proof.core 65 s =
      .next { s with bus := rest, rxbuf := s.frame, rxlen := 32, observed := s.observed ++ s.frame.toList }
end

