-- ==== Sys2Proof/Laws/Buffers.lean ====
section
/-!
SUPPORT. The byte buffers: what taking, overwriting and filling a 32-byte buffer gives, byte by byte.
-/

namespace Sys2Proof.Machine

theorem bufTake_length (b : Buf) (n : Nat) (h : n ≤ 32) : (bufTake b n).length = n := by
  simp [bufTake, h]

theorem bufTake_getElem? (b : Buf) (n i : Nat) (h : i < n) : (bufTake b n)[i]? = b.toList[i]? := by
  simp [bufTake, h]

@[simp] theorem bufOverwrite_getElem (b : Buf) (xs : List Byte) (i : Nat) (h : i < 32) :
    (bufOverwrite b xs)[i] = xs.getD i b[i] := by
  simp [bufOverwrite]

theorem bufOverwrite_below (b : Buf) (xs : List Byte) (i : Nat) (h : i < 32) (hx : i < xs.length) :
    (bufOverwrite b xs)[i] = xs[i] := by
  simp [List.getD_eq_getElem?_getD, hx]

theorem bufOverwrite_above (b : Buf) (xs : List Byte) (i : Nat) (h : i < 32) (hx : xs.length ≤ i) :
    (bufOverwrite b xs)[i] = b[i] := by
  simp [List.getD_eq_getElem?_getD, hx]

/-- What was written is what is read back. -/
theorem bufTake_bufOverwrite (b : Buf) (xs : List Byte) (h : xs.length ≤ 32) :
    bufTake (bufOverwrite b xs) xs.length = xs := by
  apply List.ext_getElem
  · simp [bufTake, h]
  · intro i h₁ h₂
    have hi : i < 32 := by omega
    simp [bufTake, List.getD_eq_getElem?_getD, h₂]

@[simp] theorem bufOfList_getElem (xs : List Byte) (i : Nat) (h : i < 32) :
    (bufOfList xs)[i] = xs.getD i 0x00 := by
  simp [bufOfList]

theorem bufOfList_toList (xs : List Byte) (h : xs.length = 32) : (bufOfList xs).toList = xs := by
  apply List.ext_getElem
  · simp [h]
  · intro i h₁ h₂
    have hi : i < 32 := by omega
    simp [List.getD_eq_getElem?_getD, h₂]

theorem bufByte_eq (b : Buf) (n : Nat) (h : n < 32) : bufByte b n = b[n] := by
  simp [bufByte, List.getD_eq_getElem?_getD, h]

theorem wireBytes_length (p : Byte) (xs : List Byte) (h : xs.length ≤ 30) : (wireBytes p xs).length = 32 := by
  simp [wireBytes, checksumBytes]
  omega

/-- The finalized frame as a list (R133). -/
theorem finalizeBytes_toList (c : Cfg) (xs : List Byte) (h : xs.length ≤ 30) :
    (finalizeBytes c xs).toList = wireBytes c.preamble xs :=
  bufOfList_toList _ (wireBytes_length _ _ h)

end Sys2Proof.Machine
end

