-- ==== Sys2Proof/Laws/Cfg.lean ====
section
/-!
SUPPORT. What a well-formed configuration gives: each fact that the checks of spec/30_encoding.md R79 are used for.
-/

namespace Sys2Proof

theorem WfCfg.checks (w : WfCfg) :
    w.toCfg.wf1 = true ∧ w.toCfg.wf2 = true ∧ w.toCfg.wf3 = true ∧ w.toCfg.wf5 = true ∧ w.toCfg.wf6 = true ∧
      w.toCfg.wf7 = true ∧ w.toCfg.wf8 = true ∧ w.toCfg.wf10 = true := by
  have h := w.ok
  simp only [Cfg.wf, Bool.and_eq_true] at h
  obtain ⟨⟨⟨⟨⟨⟨⟨h1, h2⟩, h3⟩, h5⟩, h6⟩, h7⟩, h8⟩, h10⟩ := h
  exact ⟨h1, h2, h3, h5, h6, h7, h8, h10⟩

theorem WfCfg.cmd_length_le (w : WfCfg) : w.toCfg.cmd.length ≤ 24 := by
  have h := w.checks.1
  simp [Cfg.wf1] at h
  omega

theorem WfCfg.kcfg_length_le (w : WfCfg) (k : Kind) : (w.toCfg.kcfg k).length ≤ 30 := by
  have h := w.checks.1
  simp [Cfg.wf1] at h
  cases k <;> simp [Cfg.kcfg] <;> omega

theorem WfCfg.chIns_bounds (w : WfCfg) : 1 ≤ w.toCfg.chIns ∧ w.toCfg.chIns ≤ w.toCfg.cmd.length := by
  have h := w.checks.2.2.2.1
  simp [Cfg.wf5] at h
  omega

theorem WfCfg.countByte_free (w : WfCfg) {e : Override} (he : e ∈ w.toCfg.cmd.overrides) :
    e.offset ≠ w.toCfg.chIns - 1 := by
  have h := w.checks.2.2.2.1
  simp [Cfg.wf5] at h
  exact h.2 e he

theorem WfCfg.offset_lt (w : WfCfg) (k : Kind) {e : Override} (he : e ∈ (w.toCfg.kcfg k).overrides) :
    e.offset < (w.toCfg.kcfg k).length := by
  have h := w.checks.2.1
  simp [Cfg.wf2, KindCfg.offsetsInRange] at h
  cases k <;> simp [Cfg.kcfg] at * <;> first | exact h.1.1.1 e he | exact h.1.1.2 e he | exact h.1.2 e he | exact h.2 e he

theorem WfCfg.offsets_nodup (w : WfCfg) (k : Kind) : ((w.toCfg.kcfg k).overrides.map (·.offset)).Nodup := by
  have h := w.checks.2.2.1
  simp [Cfg.wf3, KindCfg.offsetsDistinct] at h
  cases k <;> simp [Cfg.kcfg] <;> tauto

theorem WfCfg.capture_bounds (w : WfCfg) :
    w.toCfg.capLen ≤ 32 ∧ w.toCfg.capOffA < w.toCfg.capLen ∧ w.toCfg.capOffB < w.toCfg.capLen := by
  have h := w.checks.2.2.2.2.2.2.2
  simp [Cfg.wf10] at h
  omega

end Sys2Proof
end

