-- ==== Sys2Proof/Laws/State.lean ====
section
/-!
SUPPORT. What each named update of the state does to each field: one lemma a field and update, so that no later proof
unfolds a record update.
-/

namespace Sys2Proof.Machine

variable (s : State)

@[simp] theorem State.raise_eq (e : ErrCode) : s.raise e = s.setErr e := rfl
@[simp] theorem State.complete_eq : s.complete = s.setErr .ok := rfl


/-! ### setErr -/

@[simp] theorem State.setErr_ident (e : ErrCode) : (s.setErr e).ident = s.ident := rfl
@[simp] theorem State.setErr_mask (e : ErrCode) : (s.setErr e).mask = s.mask := rfl
@[simp] theorem State.setErr_action (e : ErrCode) : (s.setErr e).action = s.action := rfl
@[simp] theorem State.setErr_plen (e : ErrCode) : (s.setErr e).plen = s.plen := rfl
@[simp] theorem State.setErr_payload (e : ErrCode) : (s.setErr e).payload = s.payload := rfl
@[simp] theorem State.setErr_frame (e : ErrCode) : (s.setErr e).frame = s.frame := rfl
@[simp] theorem State.setErr_frameValid (e : ErrCode) : (s.setErr e).frameValid = s.frameValid := rfl
@[simp] theorem State.setErr_lastNonce (e : ErrCode) : (s.setErr e).lastNonce = s.lastNonce := rfl
@[simp] theorem State.setErr_lastRand (e : ErrCode) : (s.setErr e).lastRand = s.lastRand := rfl
@[simp] theorem State.setErr_crc (e : ErrCode) : (s.setErr e).crc = s.crc := rfl
@[simp] theorem State.setErr_crcIn (e : ErrCode) : (s.setErr e).crcIn = s.crcIn := rfl
@[simp] theorem State.setErr_rxbuf (e : ErrCode) : (s.setErr e).rxbuf = s.rxbuf := rfl
@[simp] theorem State.setErr_rxlen (e : ErrCode) : (s.setErr e).rxlen = s.rxlen := rfl
@[simp] theorem State.setErr_lstate (e : ErrCode) : (s.setErr e).lstate = s.lstate := rfl
@[simp] theorem State.setErr_lid (e : ErrCode) : (s.setErr e).lid = s.lid := rfl
@[simp] theorem State.setErr_prefixValid (e : ErrCode) : (s.setErr e).prefixValid = s.prefixValid := rfl
@[simp] theorem State.setErr_fullValid (e : ErrCode) : (s.setErr e).fullValid = s.fullValid := rfl
@[simp] theorem State.setErr_syncPos (e : ErrCode) : (s.setErr e).syncPos = s.syncPos := rfl
@[simp] theorem State.setErr_err (e : ErrCode) : (s.setErr e).err = e.code := rfl
@[simp] theorem State.setErr_cfg (e : ErrCode) : (s.setErr e).cfg = s.cfg := rfl
@[simp] theorem State.setErr_bus (e : ErrCode) : (s.setErr e).bus = s.bus := rfl
@[simp] theorem State.setErr_observed (e : ErrCode) : (s.setErr e).observed = s.observed := rfl
@[simp] theorem State.setErr_draws (e : ErrCode) : (s.setErr e).draws = s.draws := rfl
@[simp] theorem State.setErr_drawIndex (e : ErrCode) : (s.setErr e).drawIndex = s.drawIndex := rfl

/-! ### afterDraw -/

@[simp] theorem State.afterDraw_ident : (s.afterDraw).ident = s.ident := rfl
@[simp] theorem State.afterDraw_mask : (s.afterDraw).mask = s.mask := rfl
@[simp] theorem State.afterDraw_action : (s.afterDraw).action = s.action := rfl
@[simp] theorem State.afterDraw_plen : (s.afterDraw).plen = s.plen := rfl
@[simp] theorem State.afterDraw_payload : (s.afterDraw).payload = s.payload := rfl
@[simp] theorem State.afterDraw_frame : (s.afterDraw).frame = s.frame := rfl
@[simp] theorem State.afterDraw_frameValid : (s.afterDraw).frameValid = s.frameValid := rfl
@[simp] theorem State.afterDraw_lastNonce : (s.afterDraw).lastNonce = s.lastNonce := rfl
@[simp] theorem State.afterDraw_lastRand : (s.afterDraw).lastRand = s.lastRand := rfl
@[simp] theorem State.afterDraw_crc : (s.afterDraw).crc = s.crc := rfl
@[simp] theorem State.afterDraw_crcIn : (s.afterDraw).crcIn = s.crcIn := rfl
@[simp] theorem State.afterDraw_rxbuf : (s.afterDraw).rxbuf = s.rxbuf := rfl
@[simp] theorem State.afterDraw_rxlen : (s.afterDraw).rxlen = s.rxlen := rfl
@[simp] theorem State.afterDraw_lstate : (s.afterDraw).lstate = s.lstate := rfl
@[simp] theorem State.afterDraw_lid : (s.afterDraw).lid = s.lid := rfl
@[simp] theorem State.afterDraw_prefixValid : (s.afterDraw).prefixValid = s.prefixValid := rfl
@[simp] theorem State.afterDraw_fullValid : (s.afterDraw).fullValid = s.fullValid := rfl
@[simp] theorem State.afterDraw_syncPos : (s.afterDraw).syncPos = s.syncPos := rfl
@[simp] theorem State.afterDraw_err : (s.afterDraw).err = s.err := rfl
@[simp] theorem State.afterDraw_cfg : (s.afterDraw).cfg = s.cfg := rfl
@[simp] theorem State.afterDraw_bus : (s.afterDraw).bus = s.bus := rfl
@[simp] theorem State.afterDraw_observed : (s.afterDraw).observed = s.observed := rfl
@[simp] theorem State.afterDraw_draws : (s.afterDraw).draws = s.draws.tail := rfl
@[simp] theorem State.afterDraw_drawIndex : (s.afterDraw).drawIndex = s.drawIndex + 1 := rfl

/-! ### observe -/

@[simp] theorem State.observe_ident (v : Byte) : (s.observe v).ident = s.ident := rfl
@[simp] theorem State.observe_mask (v : Byte) : (s.observe v).mask = s.mask := rfl
@[simp] theorem State.observe_action (v : Byte) : (s.observe v).action = s.action := rfl
@[simp] theorem State.observe_plen (v : Byte) : (s.observe v).plen = s.plen := rfl
@[simp] theorem State.observe_payload (v : Byte) : (s.observe v).payload = s.payload := rfl
@[simp] theorem State.observe_frame (v : Byte) : (s.observe v).frame = s.frame := rfl
@[simp] theorem State.observe_frameValid (v : Byte) : (s.observe v).frameValid = s.frameValid := rfl
@[simp] theorem State.observe_lastNonce (v : Byte) : (s.observe v).lastNonce = s.lastNonce := rfl
@[simp] theorem State.observe_lastRand (v : Byte) : (s.observe v).lastRand = s.lastRand := rfl
@[simp] theorem State.observe_crc (v : Byte) : (s.observe v).crc = s.crc := rfl
@[simp] theorem State.observe_crcIn (v : Byte) : (s.observe v).crcIn = s.crcIn := rfl
@[simp] theorem State.observe_rxbuf (v : Byte) : (s.observe v).rxbuf = s.rxbuf := rfl
@[simp] theorem State.observe_rxlen (v : Byte) : (s.observe v).rxlen = s.rxlen := rfl
@[simp] theorem State.observe_lstate (v : Byte) : (s.observe v).lstate = s.lstate := rfl
@[simp] theorem State.observe_lid (v : Byte) : (s.observe v).lid = s.lid := rfl
@[simp] theorem State.observe_prefixValid (v : Byte) : (s.observe v).prefixValid = s.prefixValid := rfl
@[simp] theorem State.observe_fullValid (v : Byte) : (s.observe v).fullValid = s.fullValid := rfl
@[simp] theorem State.observe_syncPos (v : Byte) : (s.observe v).syncPos = s.syncPos := rfl
@[simp] theorem State.observe_err (v : Byte) : (s.observe v).err = s.err := rfl
@[simp] theorem State.observe_cfg (v : Byte) : (s.observe v).cfg = s.cfg := rfl
@[simp] theorem State.observe_bus (v : Byte) : (s.observe v).bus = s.bus := rfl
@[simp] theorem State.observe_observed (v : Byte) : (s.observe v).observed = s.observed ++ [v] := rfl
@[simp] theorem State.observe_draws (v : Byte) : (s.observe v).draws = s.draws := rfl
@[simp] theorem State.observe_drawIndex (v : Byte) : (s.observe v).drawIndex = s.drawIndex := rfl

/-! ### withBus -/

@[simp] theorem State.withBus_ident (ops : List BusOp) : (s.withBus ops).ident = s.ident := rfl
@[simp] theorem State.withBus_mask (ops : List BusOp) : (s.withBus ops).mask = s.mask := rfl
@[simp] theorem State.withBus_action (ops : List BusOp) : (s.withBus ops).action = s.action := rfl
@[simp] theorem State.withBus_plen (ops : List BusOp) : (s.withBus ops).plen = s.plen := rfl
@[simp] theorem State.withBus_payload (ops : List BusOp) : (s.withBus ops).payload = s.payload := rfl
@[simp] theorem State.withBus_frame (ops : List BusOp) : (s.withBus ops).frame = s.frame := rfl
@[simp] theorem State.withBus_frameValid (ops : List BusOp) : (s.withBus ops).frameValid = s.frameValid := rfl
@[simp] theorem State.withBus_lastNonce (ops : List BusOp) : (s.withBus ops).lastNonce = s.lastNonce := rfl
@[simp] theorem State.withBus_lastRand (ops : List BusOp) : (s.withBus ops).lastRand = s.lastRand := rfl
@[simp] theorem State.withBus_crc (ops : List BusOp) : (s.withBus ops).crc = s.crc := rfl
@[simp] theorem State.withBus_crcIn (ops : List BusOp) : (s.withBus ops).crcIn = s.crcIn := rfl
@[simp] theorem State.withBus_rxbuf (ops : List BusOp) : (s.withBus ops).rxbuf = s.rxbuf := rfl
@[simp] theorem State.withBus_rxlen (ops : List BusOp) : (s.withBus ops).rxlen = s.rxlen := rfl
@[simp] theorem State.withBus_lstate (ops : List BusOp) : (s.withBus ops).lstate = s.lstate := rfl
@[simp] theorem State.withBus_lid (ops : List BusOp) : (s.withBus ops).lid = s.lid := rfl
@[simp] theorem State.withBus_prefixValid (ops : List BusOp) : (s.withBus ops).prefixValid = s.prefixValid := rfl
@[simp] theorem State.withBus_fullValid (ops : List BusOp) : (s.withBus ops).fullValid = s.fullValid := rfl
@[simp] theorem State.withBus_syncPos (ops : List BusOp) : (s.withBus ops).syncPos = s.syncPos := rfl
@[simp] theorem State.withBus_err (ops : List BusOp) : (s.withBus ops).err = s.err := rfl
@[simp] theorem State.withBus_cfg (ops : List BusOp) : (s.withBus ops).cfg = s.cfg := rfl
@[simp] theorem State.withBus_bus (ops : List BusOp) : (s.withBus ops).bus = ops := rfl
@[simp] theorem State.withBus_observed (ops : List BusOp) : (s.withBus ops).observed = s.observed := rfl
@[simp] theorem State.withBus_draws (ops : List BusOp) : (s.withBus ops).draws = s.draws := rfl
@[simp] theorem State.withBus_drawIndex (ops : List BusOp) : (s.withBus ops).drawIndex = s.drawIndex := rfl

/-! ### resetBlock -/

@[simp] theorem State.resetBlock_ident : (s.resetBlock).ident = State.reset.ident := rfl
@[simp] theorem State.resetBlock_mask : (s.resetBlock).mask = State.reset.mask := rfl
@[simp] theorem State.resetBlock_action : (s.resetBlock).action = State.reset.action := rfl
@[simp] theorem State.resetBlock_plen : (s.resetBlock).plen = State.reset.plen := rfl
@[simp] theorem State.resetBlock_payload : (s.resetBlock).payload = State.reset.payload := rfl
@[simp] theorem State.resetBlock_frame : (s.resetBlock).frame = State.reset.frame := rfl
@[simp] theorem State.resetBlock_frameValid : (s.resetBlock).frameValid = State.reset.frameValid := rfl
@[simp] theorem State.resetBlock_lastNonce : (s.resetBlock).lastNonce = State.reset.lastNonce := rfl
@[simp] theorem State.resetBlock_lastRand : (s.resetBlock).lastRand = State.reset.lastRand := rfl
@[simp] theorem State.resetBlock_crc : (s.resetBlock).crc = State.reset.crc := rfl
@[simp] theorem State.resetBlock_crcIn : (s.resetBlock).crcIn = State.reset.crcIn := rfl
@[simp] theorem State.resetBlock_rxbuf : (s.resetBlock).rxbuf = State.reset.rxbuf := rfl
@[simp] theorem State.resetBlock_rxlen : (s.resetBlock).rxlen = State.reset.rxlen := rfl
@[simp] theorem State.resetBlock_lstate : (s.resetBlock).lstate = State.reset.lstate := rfl
@[simp] theorem State.resetBlock_lid : (s.resetBlock).lid = State.reset.lid := rfl
@[simp] theorem State.resetBlock_prefixValid : (s.resetBlock).prefixValid = State.reset.prefixValid := rfl
@[simp] theorem State.resetBlock_fullValid : (s.resetBlock).fullValid = State.reset.fullValid := rfl
@[simp] theorem State.resetBlock_syncPos : (s.resetBlock).syncPos = State.reset.syncPos := rfl
@[simp] theorem State.resetBlock_err : (s.resetBlock).err = State.reset.err := rfl
@[simp] theorem State.resetBlock_cfg : (s.resetBlock).cfg = s.cfg := rfl
@[simp] theorem State.resetBlock_bus : (s.resetBlock).bus = s.bus := rfl
@[simp] theorem State.resetBlock_observed : (s.resetBlock).observed = s.observed := rfl
@[simp] theorem State.resetBlock_draws : (s.resetBlock).draws = s.draws := rfl
@[simp] theorem State.resetBlock_drawIndex : (s.resetBlock).drawIndex = s.drawIndex := rfl

/-! ### acceptMatch -/

@[simp] theorem acceptMatch_ident (p : Nat) : (acceptMatch s p).ident = s.ident := rfl
@[simp] theorem acceptMatch_mask (p : Nat) : (acceptMatch s p).mask = s.mask := rfl
@[simp] theorem acceptMatch_action (p : Nat) : (acceptMatch s p).action = s.action := rfl
@[simp] theorem acceptMatch_plen (p : Nat) : (acceptMatch s p).plen = s.plen := rfl
@[simp] theorem acceptMatch_payload (p : Nat) : (acceptMatch s p).payload = s.payload := rfl
@[simp] theorem acceptMatch_frame (p : Nat) : (acceptMatch s p).frame = s.frame := rfl
@[simp] theorem acceptMatch_frameValid (p : Nat) : (acceptMatch s p).frameValid = s.frameValid := rfl
@[simp] theorem acceptMatch_lastNonce (p : Nat) : (acceptMatch s p).lastNonce = s.lastNonce := rfl
@[simp] theorem acceptMatch_lastRand (p : Nat) : (acceptMatch s p).lastRand = s.lastRand := rfl
@[simp] theorem acceptMatch_crc (p : Nat) : (acceptMatch s p).crc = s.crc := rfl
@[simp] theorem acceptMatch_crcIn (p : Nat) : (acceptMatch s p).crcIn = s.crcIn := rfl
@[simp] theorem acceptMatch_rxbuf (p : Nat) : (acceptMatch s p).rxbuf = s.rxbuf := rfl
@[simp] theorem acceptMatch_rxlen (p : Nat) : (acceptMatch s p).rxlen = s.rxlen := rfl
@[simp] theorem acceptMatch_lstate (p : Nat) : (acceptMatch s p).lstate = .capturing := rfl
@[simp] theorem acceptMatch_lid (p : Nat) : (acceptMatch s p).lid =
    (s.lid.set 0 (bufByte s.rxbuf (p - 2))).set 1 (bufByte s.rxbuf (p - 1)) := rfl
@[simp] theorem acceptMatch_prefixValid (p : Nat) : (acceptMatch s p).prefixValid = true := rfl
@[simp] theorem acceptMatch_fullValid (p : Nat) : (acceptMatch s p).fullValid = s.fullValid := rfl
@[simp] theorem acceptMatch_syncPos (p : Nat) : (acceptMatch s p).syncPos = BitVec.ofNat 8 p := rfl
@[simp] theorem acceptMatch_err (p : Nat) : (acceptMatch s p).err = s.err := rfl
@[simp] theorem acceptMatch_cfg (p : Nat) : (acceptMatch s p).cfg = s.cfg := rfl
@[simp] theorem acceptMatch_bus (p : Nat) : (acceptMatch s p).bus = s.bus := rfl
@[simp] theorem acceptMatch_observed (p : Nat) : (acceptMatch s p).observed = s.observed := rfl
@[simp] theorem acceptMatch_draws (p : Nat) : (acceptMatch s p).draws = s.draws := rfl
@[simp] theorem acceptMatch_drawIndex (p : Nat) : (acceptMatch s p).drawIndex = s.drawIndex := rfl

/-! ### acceptCapture -/

@[simp] theorem acceptCapture_ident : (acceptCapture s).ident = s.ident := rfl
@[simp] theorem acceptCapture_mask : (acceptCapture s).mask = s.mask := rfl
@[simp] theorem acceptCapture_action : (acceptCapture s).action = s.action := rfl
@[simp] theorem acceptCapture_plen : (acceptCapture s).plen = s.plen := rfl
@[simp] theorem acceptCapture_payload : (acceptCapture s).payload = s.payload := rfl
@[simp] theorem acceptCapture_frame : (acceptCapture s).frame = s.frame := rfl
@[simp] theorem acceptCapture_frameValid : (acceptCapture s).frameValid = s.frameValid := rfl
@[simp] theorem acceptCapture_lastNonce : (acceptCapture s).lastNonce = s.lastNonce := rfl
@[simp] theorem acceptCapture_lastRand : (acceptCapture s).lastRand = s.lastRand := rfl
@[simp] theorem acceptCapture_crc : (acceptCapture s).crc = s.crc := rfl
@[simp] theorem acceptCapture_crcIn : (acceptCapture s).crcIn = s.crcIn := rfl
@[simp] theorem acceptCapture_rxbuf : (acceptCapture s).rxbuf = s.rxbuf := rfl
@[simp] theorem acceptCapture_rxlen : (acceptCapture s).rxlen = s.rxlen := rfl
@[simp] theorem acceptCapture_lstate : (acceptCapture s).lstate = s.lstate := rfl
@[simp] theorem acceptCapture_lid : (acceptCapture s).lid = (s.lid.set 2 (bufByte s.rxbuf s.cfg.toCfg.capOffA)).set 3
      (bufByte s.rxbuf s.cfg.toCfg.capOffB) := rfl
@[simp] theorem acceptCapture_prefixValid : (acceptCapture s).prefixValid = s.prefixValid := rfl
@[simp] theorem acceptCapture_fullValid : (acceptCapture s).fullValid = true := rfl
@[simp] theorem acceptCapture_syncPos : (acceptCapture s).syncPos = s.syncPos := rfl
@[simp] theorem acceptCapture_err : (acceptCapture s).err = s.err := rfl
@[simp] theorem acceptCapture_cfg : (acceptCapture s).cfg = s.cfg := rfl
@[simp] theorem acceptCapture_bus : (acceptCapture s).bus = s.bus := rfl
@[simp] theorem acceptCapture_observed : (acceptCapture s).observed = s.observed := rfl
@[simp] theorem acceptCapture_draws : (acceptCapture s).draws = s.draws := rfl
@[simp] theorem acceptCapture_drawIndex : (acceptCapture s).drawIndex = s.drawIndex := rfl

end Sys2Proof.Machine
end

