-- ==== Sys2Proof/Laws/Encoder.lean ====
section
/-!
SUPPORT. The encoder's functions: lengths, what overrides and inflation leave at each offset, and the cases of a BUILD.
-/

namespace Sys2Proof.Machine

/-! ### The channel mask -/

theorem popcount6_le (m : Byte) : popcount6 m ≤ 6 := List.length_filter_le _ channelBits

theorem chlist_length (m : Byte) : (chlist m).length = popcount6 m := by simp [chlist, popcount6]

theorem maskInvalid_eq_false_iff (m : Byte) : maskInvalid m = false ↔ m.toNat < 64 := by
  revert m; decide

theorem actionOf_none_iff (v : Byte) : actionOf v = none ↔ 9 < v.toNat := by
  simp [actionOf, blindActions]
  omega

theorem actionOf_some_of_le (v : Byte) (h : v.toNat ≤ 9) : ∃ a, actionOf v = some a := by
  cases ha : actionOf v with
  | some a => exact ⟨a, rfl⟩
  | none => exact absurd ((actionOf_none_iff v).1 ha) (by omega)

/-! ### The payload's length -/

/-- The payload of a well-formed configuration leaves room for the checksum (WF1). -/
theorem payloadLength_le (w : WfCfg) (a : BlindAction) (m : Byte) : payloadLength w.toCfg a m ≤ 30 := by
  have h1 := w.cmd_length_le
  have h2 := w.kcfg_length_le a.kind
  have h3 := popcount6_le m
  unfold payloadLength
  split
  · rename_i hk
    rw [hk]
    simp only [Cfg.kcfg]
    omega
  · omega

/-! ### Overrides -/

@[simp] theorem applyOverrides_length (c : Cfg) (x : BuildInputs) (t : List Byte) (ov : List Override) :
    (applyOverrides c x t ov).length = t.length := by
  induction ov generalizing t with
  | nil => rfl
  | cons e es ih => simpa [applyOverrides] using ih (t.set e.offset (selval c x e.sel))

/-- "leaves the rest untouched" (R124). -/
theorem applyOverrides_untouched (c : Cfg) (x : BuildInputs) (t : List Byte) (ov : List Override) (o : Nat)
    (h : ∀ e ∈ ov, e.offset ≠ o) : (applyOverrides c x t ov)[o]? = t[o]? := by
  induction ov generalizing t with
  | nil => rfl
  | cons e es ih =>
    have he := h e (by simp)
    have := ih (t.set e.offset (selval c x e.sel)) fun e' h' => h e' (by simp [h'])
    simpa [applyOverrides, List.getElem?_set_ne he] using this

/-- Offsets are distinct, so each entry's value stands (R124, WF3). -/
theorem applyOverrides_overridden (c : Cfg) (x : BuildInputs) (t : List Byte) (ov : List Override)
    (hd : (ov.map (·.offset)).Nodup) (e : Override) (he : e ∈ ov) (hr : e.offset < t.length) :
    (applyOverrides c x t ov)[e.offset]? = some (selval c x e.sel) := by
  induction ov generalizing t with
  | nil => simp at he
  | cons d ds ih =>
    rw [List.map_cons, List.nodup_cons] at hd
    have hunf : applyOverrides c x t (d :: ds) = applyOverrides c x (t.set d.offset (selval c x d.sel)) ds := rfl
    rw [hunf]
    rcases List.mem_cons.1 he with rfl | he'
    · rw [applyOverrides_untouched]
      · simp [hr]
      · intro e' he' heq
        exact hd.1 (List.mem_map.2 ⟨e', he', heq⟩)
    · exact ih _ hd.2 he' (by simpa using hr)

/-! ### The payload -/

theorem inflate_length (c : Cfg) (m : Byte) (t : List Byte) (h : c.chIns ≤ t.length) :
    (inflate c m t).length = t.length + popcount6 m := by
  simp [inflate, chlist_length]
  omega

theorem buildPayload_length (w : WfCfg) (x : BuildInputs) :
    (buildPayload w.toCfg x).length = payloadLength w.toCfg x.act x.mask := by
  unfold buildPayload payloadLength
  simp only
  split
  · rename_i hk
    have := w.chIns_bounds.2
    rw [hk, inflate_length _ _ _ (by simpa [Cfg.kcfg, KindCfg.length] using this)]
    simp [KindCfg.length]
  · simp [KindCfg.length]

/-! ### The cases of a BUILD -/

/-- What validation answers (R122): under a well-formed configuration OVERFLOW does not occur. -/
theorem validateBuild_cases (s : State) :
    (9 < s.action.toNat ∧ validateBuild s = .error .badAction) ∨
    (s.action.toNat ≤ 9 ∧ 64 ≤ s.mask.toNat ∧ validateBuild s = .error .badMask) ∨
    (s.ValidOperands ∧ ∃ a, actionOf s.action = some a ∧ validateBuild s = .ok a) := by
  unfold validateBuild State.ValidOperands
  cases ha : actionOf s.action with
  | none => exact .inl ⟨(actionOf_none_iff _).1 ha, rfl⟩
  | some a =>
    have h9 : s.action.toNat ≤ 9 := by
      by_contra h
      simp [(actionOf_none_iff s.action).2 (by omega)] at ha
    cases hm : maskInvalid s.mask with
    | true =>
      refine .inr (.inl ⟨h9, ?_, by simp⟩)
      by_contra h
      simp [(maskInvalid_eq_false_iff s.mask).2 (by omega)] at hm
    | false =>
      have hp := payloadLength_le s.cfg a s.mask
      exact .inr (.inr ⟨⟨h9, (maskInvalid_eq_false_iff _).1 hm⟩, a, rfl, by simp; omega⟩)

/-- What a BUILD leaves. -/
theorem buildState_cases (s : State) :
    (9 < s.action.toNat ∧ buildState s = s.setErr .badAction) ∨
    (s.action.toNat ≤ 9 ∧ 64 ≤ s.mask.toNat ∧ buildState s = s.setErr .badMask) ∨
    (s.ValidOperands ∧ ∃ a, actionOf s.action = some a ∧ buildState s = buildAction s a) := by
  rcases validateBuild_cases s with ⟨h, hv⟩ | ⟨h, h', hv⟩ | ⟨h, a, ha, hv⟩
  · exact .inl ⟨h, by simp [buildState, hv]⟩
  · exact .inr (.inl ⟨h, h', by simp [buildState, hv]⟩)
  · exact .inr (.inr ⟨h, a, ha, by simp [buildState, hv]⟩)

/-- What an ENCODE leaves. -/
theorem encodeState_cases (s : State) :
    (9 < s.action.toNat ∧ encodeState s = s.setErr .badAction) ∨
    (s.action.toNat ≤ 9 ∧ 64 ≤ s.mask.toNat ∧ encodeState s = s.setErr .badMask) ∨
    (s.ValidOperands ∧ ∃ a, actionOf s.action = some a ∧ encodeState s = finalizeState (buildAction s a)) := by
  rcases validateBuild_cases s with ⟨h, hv⟩ | ⟨h, h', hv⟩ | ⟨h, a, ha, hv⟩
  · exact .inl ⟨h, by simp [encodeState, hv]⟩
  · exact .inr (.inl ⟨h, h', by simp [encodeState, hv]⟩)
  · exact .inr (.inr ⟨h, a, ha, by simp [encodeState, hv]⟩)

theorem buildAction_plen (s : State) (a : BlindAction) :
    (buildAction s a).plen.toNat = payloadLength s.cfg.toCfg a s.mask := by
  have := payloadLength_le s.cfg a s.mask
  simp [buildAction]
  omega

/-- PAYLOAD[0:PLEN) after a BUILD is the payload built (R132). -/
theorem buildAction_payload (s : State) (a : BlindAction) :
    bufTake (buildAction s a).payload (buildAction s a).plen.toNat = buildPayload s.cfg.toCfg (buildInputs s a) := by
  have hl := buildPayload_length s.cfg (buildInputs s a)
  have hp := payloadLength_le s.cfg a s.mask
  have hl' : (buildPayload s.cfg.toCfg (buildInputs s a)).length = (buildAction s a).plen.toNat := by
    rw [buildAction_plen, hl]
    rfl
  rw [← hl']
  exact bufTake_bufOverwrite _ _ (by rw [hl]; exact le_trans hp (by omega))

/-- What a FINALIZE leaves (R134). -/
theorem finalizeState_cases (s : State) :
    (30 < s.plen.toNat ∧ finalizeState s = s.setErr .overflow) ∨
    (s.plen.toNat ≤ 30 ∧ finalizeState s =
      { s with
        frame := finalizeBytes s.cfg.toCfg (bufTake s.payload s.plen.toNat)
        frameValid := true
        err := 0 }) := by
  unfold finalizeState
  split
  · exact .inl ⟨by omega, rfl⟩
  · exact .inr ⟨by omega, rfl⟩

/-! ### The fields after a BUILD that passed validation -/

@[simp] theorem buildAction_ident (s : State) (a : BlindAction) : (buildAction s a).ident = s.ident := rfl
@[simp] theorem buildAction_mask (s : State) (a : BlindAction) : (buildAction s a).mask = s.mask := rfl
@[simp] theorem buildAction_action (s : State) (a : BlindAction) : (buildAction s a).action = s.action := rfl
@[simp] theorem buildAction_frame (s : State) (a : BlindAction) : (buildAction s a).frame = s.frame := rfl
@[simp] theorem buildAction_frameValid (s : State) (a : BlindAction) : (buildAction s a).frameValid = s.frameValid := rfl
@[simp] theorem buildAction_crc (s : State) (a : BlindAction) : (buildAction s a).crc = s.crc := rfl
@[simp] theorem buildAction_crcIn (s : State) (a : BlindAction) : (buildAction s a).crcIn = s.crcIn := rfl
@[simp] theorem buildAction_rxbuf (s : State) (a : BlindAction) : (buildAction s a).rxbuf = s.rxbuf := rfl
@[simp] theorem buildAction_rxlen (s : State) (a : BlindAction) : (buildAction s a).rxlen = s.rxlen := rfl
@[simp] theorem buildAction_lstate (s : State) (a : BlindAction) : (buildAction s a).lstate = s.lstate := rfl
@[simp] theorem buildAction_lid (s : State) (a : BlindAction) : (buildAction s a).lid = s.lid := rfl
@[simp] theorem buildAction_prefixValid (s : State) (a : BlindAction) : (buildAction s a).prefixValid = s.prefixValid := rfl
@[simp] theorem buildAction_fullValid (s : State) (a : BlindAction) : (buildAction s a).fullValid = s.fullValid := rfl
@[simp] theorem buildAction_syncPos (s : State) (a : BlindAction) : (buildAction s a).syncPos = s.syncPos := rfl
@[simp] theorem buildAction_cfg (s : State) (a : BlindAction) : (buildAction s a).cfg = s.cfg := rfl
@[simp] theorem buildAction_bus (s : State) (a : BlindAction) : (buildAction s a).bus = s.bus := rfl
@[simp] theorem buildAction_observed (s : State) (a : BlindAction) : (buildAction s a).observed = s.observed := rfl
@[simp] theorem buildAction_lastNonce (s : State) (a : BlindAction) : (buildAction s a).lastNonce = s.nextDraw := rfl
@[simp] theorem buildAction_lastRand (s : State) (a : BlindAction) :
    (buildAction s a).lastRand = s.afterDraw.nextDraw := rfl
@[simp] theorem buildAction_err (s : State) (a : BlindAction) : (buildAction s a).err = 0 := rfl
@[simp] theorem buildAction_draws (s : State) (a : BlindAction) : (buildAction s a).draws = s.draws.tail.tail := rfl
@[simp] theorem buildAction_drawIndex (s : State) (a : BlindAction) :
    (buildAction s a).drawIndex = s.drawIndex + 2 := rfl
theorem buildAction_payload_eq (s : State) (a : BlindAction) :
    (buildAction s a).payload = bufOverwrite s.payload (buildPayload s.cfg.toCfg (buildInputs s a)) := rfl

/-- The FINALIZE part of an ENCODE cannot fail: its frame is that of the payload just built (R135). -/
theorem finalizeState_buildAction (s : State) (a : BlindAction) :
    finalizeState (buildAction s a) =
      { buildAction s a with
        frame := finalizeBytes s.cfg.toCfg (buildPayload s.cfg.toCfg (buildInputs s a))
        frameValid := true
        err := 0 } := by
  rcases finalizeState_cases (buildAction s a) with ⟨h, _⟩ | ⟨_, h⟩
  · have := payloadLength_le s.cfg a s.mask
    rw [buildAction_plen] at h
    omega
  · rw [h, buildAction_payload]
    rfl

end Sys2Proof.Machine
end

