-- ==== Sys2Proof/Laws/Sync.lean ====
section
/-!
SUPPORT. The matcher: where an accepted match can lie, and the cases of SCAN and CAPTURE.
-/

namespace Sys2Proof.Machine

/-- The bounds of an accepted match, from any point of a scan (R162). -/
theorem scanFrom_bounds (bs : List Byte) (i cnt p : Nat) (h : scanFrom bs i cnt = some p) :
    2 ≤ p ∧ i ≤ p + 3 ∧ p + 4 ≤ i + bs.length := by
  induction bs generalizing i cnt with
  | nil => simp [scanFrom] at h
  | cons b bs ih =>
    simp only [scanFrom] at h
    simp only [List.length_cons]
    split at h
    · split at h
      · split at h
        · simp only [Option.some.injEq] at h
          omega
        · have := ih _ _ h
          omega
      · have := ih _ _ h
        omega
    · have := ih _ _ h
      omega

/-- A scan that accepts nothing up to a byte that leaves no partial match open goes on behind it with the counter at 0
(R162). -/
theorem scanFrom_append_closed (pre : List Byte) (b : Byte) (hb : b ≠ 0xC0 ∧ b ≠ 0x11 ∧ b ≠ 0x00) (rest : List Byte)
    (i cnt : Nat) (hc : cnt < 4) (h : scanFrom (pre ++ [b]) i cnt = none) :
    scanFrom (pre ++ [b] ++ rest) i cnt = scanFrom rest (i + pre.length + 1) 0 := by
  obtain ⟨h1, h2, h3⟩ := hb
  induction pre generalizing i cnt with
  | nil =>
    simp only [List.nil_append, List.cons_append, scanFrom] at *
    split at h
    · have : cnt = 3 := by interval_cases cnt <;> simp_all [syncPat]
      subst this
      simp_all
    · simp_all
  | cons x xs ih =>
    simp only [List.cons_append, scanFrom, List.length_cons] at *
    repeat' split at h
    all_goals first
      | cases h
      | simp only [*, if_true, if_false]; rw [ih _ _ (by omega) h]; congr 1; omega

/-- What a SCAN leaves (R165). -/
theorem scanState_cases (s : State) :
    (s.lstate ≠ .searching ∧ scanState s = s.setErr .wrongState) ∨
    (s.lstate = .searching ∧ 32 < s.rxlen.toNat ∧ scanState s = s.setErr .badLen) ∨
    (s.lstate = .searching ∧ s.rxlen.toNat ≤ 32 ∧ scanStream (bufTake s.rxbuf s.rxlen.toNat) = none ∧
      scanState s = s.setErr .ok) ∨
    (s.lstate = .searching ∧ s.rxlen.toNat ≤ 32 ∧ ∃ p, scanStream (bufTake s.rxbuf s.rxlen.toNat) = some p ∧
      2 ≤ p ∧ p + 4 ≤ s.rxlen.toNat ∧ scanState s = (acceptMatch s p).setErr .ok) := by
  by_cases h1 : s.lstate = .searching
  · by_cases h2 : s.rxlen.toNat > 32
    · exact .inr (.inl ⟨h1, h2, by simp [scanState, h1, h2]⟩)
    · cases h3 : scanStream (bufTake s.rxbuf s.rxlen.toNat) with
      | none => exact .inr (.inr (.inl ⟨h1, by omega, rfl, by simp [scanState, h1, h2, h3]⟩))
      | some p =>
        have hb := scanFrom_bounds _ _ _ _ h3
        rw [bufTake_length _ _ (by omega)] at hb
        exact .inr (.inr (.inr ⟨h1, by omega, p, rfl, hb.1, by omega, by simp [scanState, h1, h2, h3]⟩))
  · exact .inl ⟨h1, by simp [scanState, h1]⟩

/-- What a CAPTURE leaves (R166). -/
theorem captureState_cases (s : State) :
    (s.lstate ≠ .capturing ∧ captureState s = s.setErr .wrongState) ∨
    (s.lstate = .capturing ∧ 32 < s.rxlen.toNat ∧ captureState s = s.setErr .badLen) ∨
    (s.lstate = .capturing ∧ s.rxlen.toNat ≤ 32 ∧ s.rxlen.toNat ≠ s.cfg.toCfg.capLen ∧
      captureState s = s.setErr .ok) ∨
    (s.lstate = .capturing ∧ s.rxlen.toNat ≤ 32 ∧ s.rxlen.toNat = s.cfg.toCfg.capLen ∧
      captureState s = (acceptCapture s).setErr .ok) := by
  by_cases h1 : s.lstate = .capturing
  · by_cases h2 : s.rxlen.toNat > 32
    · exact .inr (.inl ⟨h1, h2, by simp [captureState, h1, h2]⟩)
    · by_cases h3 : s.rxlen.toNat = s.cfg.toCfg.capLen
      · exact .inr (.inr (.inr ⟨h1, by omega, h3, by
          rw [captureState, if_neg (by simp [h1]), if_neg h2, if_pos h3]; rfl⟩))
      · exact .inr (.inr (.inl ⟨h1, by omega, h3, by simp [captureState, h1, h2, h3]⟩))
  · exact .inl ⟨h1, by simp [captureState, h1]⟩

end Sys2Proof.Machine
end

