-- ==== Sys2Proof/Laws/Words.lean ====
section
/-!
SUPPORT. The fields of words put together from bytes: the halves of the CRC, the 24-bit override word and the 16-bit
transaction word.
-/

namespace Sys2Proof.Machine

/-! ### CRC_HI and CRC_LO -/

@[simp] theorem crcHiByte_append (v c : Byte) : crcHiByte (v ++ c) = v := by
  unfold crcHiByte
  exact BitVec.extractLsb'_append_eq_left

@[simp] theorem crcLoByte_append (v c : Byte) : crcLoByte (v ++ c) = c := by
  unfold crcLoByte
  exact BitVec.extractLsb'_append_eq_right

/-- A word is its high byte before its low byte. -/
theorem crcBytes_append (c : Word16) : (crcHiByte c ++ crcLoByte c : Word16) = c := by
  unfold crcHiByte crcLoByte
  apply BitVec.eq_of_getLsbD_eq
  intro i hi
  erw [BitVec.getLsbD_append]
  simp only [BitVec.getLsbD_extractLsb']
  split
  · simp; omega
  · simp only [show i - 8 < 8 by omega]
    simp
    congr 1
    omega

/-! ### The override word -/

theorem word24_high (a b c : Byte) : BitVec.extractLsb' 16 8 (a ++ b ++ c) = a := by
  apply BitVec.eq_of_getLsbD_eq
  intro i hi
  rw [BitVec.getLsbD_extractLsb']
  erw [BitVec.getLsbD_append, BitVec.getLsbD_append]
  simp only [hi, decide_true, Bool.true_and]
  rw [if_neg (by omega), if_neg (by omega)]
  congr 1
  omega

theorem word24_middle (a b c : Byte) : BitVec.extractLsb' 8 8 (a ++ b ++ c) = b := by
  apply BitVec.eq_of_getLsbD_eq
  intro i hi
  rw [BitVec.getLsbD_extractLsb']
  erw [BitVec.getLsbD_append, BitVec.getLsbD_append]
  simp only [hi, decide_true, Bool.true_and]
  rw [if_neg (by omega), if_pos (by omega)]
  congr 1
  omega

theorem word24_low (a b c : Byte) : BitVec.extractLsb' 0 8 (a ++ b ++ c) = c :=
  BitVec.extractLsb'_append_eq_right

/-- A 24-bit word is its three fields in order. -/
theorem word24_fields (w : BitVec 24) :
    w.extractLsb' 16 8 ++ w.extractLsb' 8 8 ++ w.extractLsb' 0 8 = w := by
  apply BitVec.eq_of_getLsbD_eq
  intro i hi
  erw [BitVec.getLsbD_append, BitVec.getLsbD_append]
  simp only [BitVec.getLsbD_extractLsb']
  split
  · simp; omega
  · split
    · simp only [show i - 8 < 8 by omega]
      simp
      congr 1
      omega
    · simp only [show i - 8 - 8 < 8 by omega]
      simp
      congr 1
      omega

/-! ### The transaction word -/

theorem word16_address (x : BitVec 1) (a : Addr) (v : Byte) : BitVec.extractLsb' 8 7 (x ++ a ++ v) = a := by
  apply BitVec.eq_of_getLsbD_eq
  intro i hi
  rw [BitVec.getLsbD_extractLsb']
  erw [BitVec.getLsbD_append, BitVec.getLsbD_append]
  simp only [hi, decide_true, Bool.true_and]
  rw [if_neg (by omega), if_pos (by omega)]
  congr 1
  omega

theorem word16_data (x : BitVec 1) (a : Addr) (v : Byte) : BitVec.extractLsb' 0 8 (x ++ a ++ v) = v :=
  BitVec.extractLsb'_append_eq_right

theorem word16_msb (x : BitVec 1) (a : Addr) (v : Byte) : (x ++ a ++ v : Word16).msb = x.msb := by
  simp only [BitVec.msb_eq_getLsbD_last]
  erw [BitVec.getLsbD_append, BitVec.getLsbD_append]
  simp

/-- A 16-bit transaction word is its three fields in order. -/
theorem word16_fields (w : Word16) : BitVec.ofBool w.msb ++ w.extractLsb' 8 7 ++ w.extractLsb' 0 8 = w := by
  apply BitVec.eq_of_getLsbD_eq
  intro i hi
  erw [BitVec.getLsbD_append, BitVec.getLsbD_append]
  simp only [BitVec.getLsbD_extractLsb']
  split
  · simp; omega
  · split
    · simp only [show i - 8 < 7 by omega]
      simp
      congr 1
      omega
    · have hi : i = 15 := by omega
      subst hi
      simp [BitVec.msb_eq_getLsbD_last]

end Sys2Proof.Machine
end

