-- ==== Sys2Proof/Laws/Exec.lean ====
section
/-!
SUPPORT. The command a step runs: the state each command leaves, as one function, and the cases of a step.
-/

namespace Sys2Proof.Machine

/-- The state a command leaves. -/
def commandState : Instr → State → State
  | .nop, s => s.setErr .ok
  | .encode, s => encodeState s
  | .build, s => buildState s
  | .finalize, s => finalizeState s
  | .crcInit, s => ({ s with crc := crcInitial } : State).setErr .ok
  | .crcUpdate, s => ({ s with crc := crcStep s.crc s.crcIn } : State).setErr .ok
  | .crcPayload, s => crcPayloadState s
  | .learnStart, s =>
    ({ s with
        lstate := .searching, lid := Vector.replicate 4 0x00, prefixValid := false, fullValid := false,
        syncPos := 0x00 } : State).setErr .ok
  | .learnCancel, s => ({ s with lstate := .idle } : State).setErr .ok
  | .scan, s => scanState s
  | .capture, s => captureState s

@[simp] theorem exec_eq (i : Instr) (s : State) : exec i s = .next (commandState i s) := by
  cases i <;> rfl

/-- What a CRC_PAYLOAD leaves (R105). -/
theorem crcPayloadState_cases (s : State) :
    (32 < s.plen.toNat ∧ crcPayloadState s = s.setErr .badLen) ∨
    (s.plen.toNat ≤ 32 ∧ crcPayloadState s =
      ({ s with crc := crc16 (bufTake s.payload s.plen.toNat) } : State).setErr .ok) := by
  unfold crcPayloadState
  split
  · exact .inl ⟨by omega, rfl⟩
  · exact .inr ⟨by omega, rfl⟩

/-! ### Everything a command can do -/

/-- `Effect s i t`: command `i` run on `s` leaves `t`; one constructor a case of the command's rule. -/
inductive Effect (s : State) : Instr → State → Prop where
  | nop : Effect s .nop (s.setErr .ok)
  | buildBadAction (h : 9 < s.action.toNat) : Effect s .build (s.setErr .badAction)
  | buildBadMask (h : s.action.toNat ≤ 9) (h' : 64 ≤ s.mask.toNat) : Effect s .build (s.setErr .badMask)
  | build (h : s.ValidOperands) (a : BlindAction) (ha : actionOf s.action = some a) :
    Effect s .build (buildAction s a)
  | encodeBadAction (h : 9 < s.action.toNat) : Effect s .encode (s.setErr .badAction)
  | encodeBadMask (h : s.action.toNat ≤ 9) (h' : 64 ≤ s.mask.toNat) : Effect s .encode (s.setErr .badMask)
  | encode (h : s.ValidOperands) (a : BlindAction) (ha : actionOf s.action = some a) :
    Effect s .encode
      { buildAction s a with
        frame := finalizeBytes s.cfg.toCfg (buildPayload s.cfg.toCfg (buildInputs s a))
        frameValid := true
        err := 0 }
  | finalizeOverflow (h : 30 < s.plen.toNat) : Effect s .finalize (s.setErr .overflow)
  | finalize (h : s.plen.toNat ≤ 30) :
    Effect s .finalize
      { s with
        frame := finalizeBytes s.cfg.toCfg (bufTake s.payload s.plen.toNat)
        frameValid := true
        err := 0 }
  | crcInit : Effect s .crcInit { s with crc := crcInitial, err := 0 }
  | crcUpdate : Effect s .crcUpdate { s with crc := crcStep s.crc s.crcIn, err := 0 }
  | crcPayloadBadLen (h : 32 < s.plen.toNat) : Effect s .crcPayload (s.setErr .badLen)
  | crcPayload (h : s.plen.toNat ≤ 32) :
    Effect s .crcPayload { s with crc := crc16 (bufTake s.payload s.plen.toNat), err := 0 }
  | learnStart :
    Effect s .learnStart
      { s with
        lstate := .searching, lid := Vector.replicate 4 0x00, prefixValid := false, fullValid := false,
        syncPos := 0x00, err := 0 }
  | learnCancel : Effect s .learnCancel { s with lstate := .idle, err := 0 }
  | scanWrongState (h : s.lstate ≠ .searching) : Effect s .scan (s.setErr .wrongState)
  | scanBadLen (h : s.lstate = .searching) (h' : 32 < s.rxlen.toNat) : Effect s .scan (s.setErr .badLen)
  | scanNone (h : s.lstate = .searching) (h' : s.rxlen.toNat ≤ 32)
    (hs : scanStream (bufTake s.rxbuf s.rxlen.toNat) = none) : Effect s .scan (s.setErr .ok)
  | scanMatch (h : s.lstate = .searching) (h' : s.rxlen.toNat ≤ 32) (p : Nat)
    (hs : scanStream (bufTake s.rxbuf s.rxlen.toNat) = some p) (h2 : 2 ≤ p) (hp : p + 4 ≤ s.rxlen.toNat) :
    Effect s .scan ((acceptMatch s p).setErr .ok)
  | captureWrongState (h : s.lstate ≠ .capturing) : Effect s .capture (s.setErr .wrongState)
  | captureBadLen (h : s.lstate = .capturing) (h' : 32 < s.rxlen.toNat) : Effect s .capture (s.setErr .badLen)
  | captureIgnored (h : s.lstate = .capturing) (h' : s.rxlen.toNat ≤ 32)
    (hl : s.rxlen.toNat ≠ s.cfg.toCfg.capLen) : Effect s .capture (s.setErr .ok)
  | capture (h : s.lstate = .capturing) (h' : s.rxlen.toNat ≤ 32) (hl : s.rxlen.toNat = s.cfg.toCfg.capLen) :
    Effect s .capture ((acceptCapture s).setErr .ok)

/-- What a command leaves is one of its cases. -/
theorem commandState_effect (i : Instr) (s : State) : Effect s i (commandState i s) := by
  cases i <;> simp only [commandState]
  case nop => exact .nop
  case encode =>
    rcases encodeState_cases s with ⟨h, e⟩ | ⟨h, h', e⟩ | ⟨h, a, ha, e⟩ <;> rw [e]
    · exact .encodeBadAction h
    · exact .encodeBadMask h h'
    · rw [finalizeState_buildAction]
      exact .encode h a ha
  case build =>
    rcases buildState_cases s with ⟨h, e⟩ | ⟨h, h', e⟩ | ⟨h, a, ha, e⟩ <;> rw [e]
    · exact .buildBadAction h
    · exact .buildBadMask h h'
    · exact .build h a ha
  case finalize =>
    rcases finalizeState_cases s with ⟨h, e⟩ | ⟨h, e⟩ <;> rw [e]
    · exact .finalizeOverflow h
    · exact .finalize h
  case crcInit => exact .crcInit
  case crcUpdate => exact .crcUpdate
  case crcPayload =>
    rcases crcPayloadState_cases s with ⟨h, e⟩ | ⟨h, e⟩ <;> rw [e]
    · exact .crcPayloadBadLen h
    · exact .crcPayload h
  case learnStart => exact .learnStart
  case learnCancel => exact .learnCancel
  case scan =>
    rcases scanState_cases s with ⟨h, e⟩ | ⟨h, h', e⟩ | ⟨h, h', hs, e⟩ | ⟨h, h', p, hs, h2, hp, e⟩ <;> rw [e]
    · exact .scanWrongState h
    · exact .scanBadLen h h'
    · exact .scanNone h h' hs
    · exact .scanMatch h h' p hs h2 hp
  case capture =>
    rcases captureState_cases s with ⟨h, e⟩ | ⟨h, h', e⟩ | ⟨h, h', hl, e⟩ | ⟨h, h', hl, e⟩ <;> rw [e]
    · exact .captureWrongState h
    · exact .captureBadLen h h'
    · exact .captureIgnored h h' hl
    · exact .capture h h' hl

/-- The inversion of `exec`: where it answers a next state, that state is one of the command's cases. -/
theorem exec_cases {i : Instr} {s t : State} (h : exec i s = .next t) : Effect s i t := by
  rw [exec_eq, Host.Outcome.next.injEq] at h
  exact h ▸ commandState_effect i s

/-! ### Decoding -/

/-- Only the opcode of R71 selects a command. -/
theorem decode_command_iff (v : Byte) (i : Instr) : decode v = .command i ↔ v = encode i := by
  revert v; cases i <;> decide

theorem decode_cases (v : Byte) : (∃ i, decode v = .command i ∧ v = encode i) ∨ decode v = .illegal v := by
  cases hd : decode v with
  | command i => exact .inl ⟨i, rfl, (decode_command_iff v i).1 hd⟩
  | illegal w =>
    unfold decode at hd
    split at hd <;> simp_all

/-! ### Addresses -/

theorem addrOf_locOf (a : Addr) : addrOf (locOf a) = a := by
  revert a; decide +kernel

theorem locOf_addrOf (l : Loc) : locOf (addrOf l) = l := by
  cases l with
  | ident j => revert j; decide
  | lid j => revert j; decide
  | reserved j => revert j; decide
  | payload i => revert i; decide +kernel
  | frame i => revert i; decide +kernel
  | rxbuf i => revert i; decide +kernel
  | _ => rfl

theorem locOf_eq_iff (a : Addr) (l : Loc) : locOf a = l ↔ a = addrOf l := by
  constructor
  · rintro rfl
    exact (addrOf_locOf a).symm
  · rintro rfl
    exact locOf_addrOf l

/-! ### Transactions -/

theorem runCommand_command (v : Byte) (i : Instr) (s : State) (h : decode v = .command i) :
    runCommand v s = .next (commandState i s) := by
  simp [runCommand, h]

theorem runCommand_illegal (v w : Byte) (s : State) (h : decode v = .illegal w) :
    runCommand v s = .next (s.setErr .illegalCmd) := by
  simp [runCommand, h, illegalCommand]

/-- Everything a transaction can do. -/
theorem transact_cases (op : BusOp) (s : State) :
    (∃ a, op = .read a ∧ transact op s = .next (s.observe (s.busRead a))) ∨
    (∃ a v, op = .write a v ∧ locOf a ≠ .cmd ∧ transact op s = .next (s.busWrite a v)) ∨
    (∃ i, op = .write (addrOf .cmd) (encode i) ∧ transact op s = .next (commandState i s)) ∨
    (∃ v, op = .write (addrOf .cmd) v ∧ decode v = .illegal v ∧ transact op s = .next (s.setErr .illegalCmd)) ∨
    (op = .reset ∧ transact op s = .next s.resetBlock) := by
  cases op with
  | read a => exact .inl ⟨a, rfl, rfl⟩
  | write a v =>
    by_cases ha : locOf a = .cmd
    · have ha' := (locOf_eq_iff a .cmd).1 ha
      rcases decode_cases v with ⟨i, hi, rfl⟩ | hv
      · exact .inr (.inr (.inl ⟨i, by rw [ha'], by simp [transact, ha, runCommand_command _ _ _ hi]⟩))
      · exact .inr (.inr (.inr (.inl ⟨v, by rw [ha'], hv, by simp [transact, ha, runCommand_illegal _ _ _ hv]⟩)))
    · exact .inr (.inl ⟨a, v, rfl, ha, by simp [transact, ha]⟩)
  | reset => exact .inr (.inr (.inr (.inr ⟨rfl, rfl⟩)))

/-- What a step does: nothing where no transaction is pending, else the first transaction. -/
theorem step_cases (s : State) :
    (s.bus = [] ∧ step s = .next s) ∨
    (∃ op rest, s.bus = op :: rest ∧ step s = transact op (s.withBus rest)) := by
  cases h : s.bus with
  | nil => exact .inl ⟨rfl, by simp [step, takeTransaction, h]⟩
  | cons op rest => exact .inr ⟨op, rest, rfl, by simp [step, takeTransaction, h]⟩

end Sys2Proof.Machine
end

