-- ==== Sys2Proof/Laws/PerInstr.lean ====
section
/-!
SUPPORT. Statements for all instructions, one lemma a constructor.
-/

namespace Sys2Proof.Laws

/-- A command is well-formed and its byte decodes back to it (R71, R84). -/
def RoundTrip.Statement (i : Instr) : Prop := i.WellFormed = true ∧ decode (encode i) = .command i

theorem RoundTrip.nop : RoundTrip.Statement .nop := ⟨rfl, rfl⟩
theorem RoundTrip.encode : RoundTrip.Statement .encode := ⟨rfl, rfl⟩
theorem RoundTrip.build : RoundTrip.Statement .build := ⟨rfl, rfl⟩
theorem RoundTrip.finalize : RoundTrip.Statement .finalize := ⟨rfl, rfl⟩
theorem RoundTrip.crcInit : RoundTrip.Statement .crcInit := ⟨rfl, rfl⟩
theorem RoundTrip.crcUpdate : RoundTrip.Statement .crcUpdate := ⟨rfl, rfl⟩
theorem RoundTrip.crcPayload : RoundTrip.Statement .crcPayload := ⟨rfl, rfl⟩
theorem RoundTrip.learnStart : RoundTrip.Statement .learnStart := ⟨rfl, rfl⟩
theorem RoundTrip.learnCancel : RoundTrip.Statement .learnCancel := ⟨rfl, rfl⟩
theorem RoundTrip.scan : RoundTrip.Statement .scan := ⟨rfl, rfl⟩
theorem RoundTrip.capture : RoundTrip.Statement .capture := ⟨rfl, rfl⟩

end Sys2Proof.Laws
end

