-- ==== Sys2Proof/Laws/Rom.lean ====
section
/-!
SUPPORT. The configuration ROM: what a selector's two fields decode to, and what the words of a kind give for the offsets
and the counts of its entries.
-/

namespace Sys2Proof.Machine

/-- A selector's own fields decode to it (R76). -/
theorem ofFields_code_value (sel : Selector) : Selector.ofFields sel.code sel.value = some sel := by
  cases sel with
  | ident j => revert j; decide
  | const v => simp [Selector.ofFields, Selector.code, Selector.value]
  | _ => rfl

/-- A selector that two fields decode to has those fields (R76). -/
theorem fields_of_ofFields {c v : Byte} {sel : Selector} (h : Selector.ofFields c v = some sel) :
    sel.code = c ∧ sel.value = v := by
  unfold Selector.ofFields at h
  split at h
  · cases h
    exact ⟨by simp_all [Selector.code], rfl⟩
  · split at h
    · cases h
    · have hv : v = 0x00 := by simp_all
      subst hv
      split at h <;> cases h <;> rename_i hc <;>
        exact ⟨BitVec.eq_of_toNat_eq (by rw [hc]; rfl), rfl⟩

/-- An entry's word is read from its three fields (R77). -/
theorem ofWord_eq_some {w : BitVec 24} {e : Override} :
    Override.ofWord w = some e ↔ Selector.ofFields (romCode w) (romValue w) = some e.sel ∧ e.offset = (romOffset w).toNat := by
  obtain ⟨o, sel⟩ := e
  simp only [Override.ofWord, Option.map_eq_some_iff, Override.mk.injEq, romCode, romValue, romOffset]
  constructor
  · rintro ⟨_, h, rfl, rfl⟩
    exact ⟨h, rfl⟩
  · rintro ⟨h, rfl⟩
    exact ⟨sel, h, rfl, rfl⟩

/-- The offsets of a kind's entries are the offset fields of its words, where the words pass WF4. -/
theorem decode_offsets (k : KindRom) (hk : k.wordsOk = true) :
    k.decode.overrides.map (·.offset) = k.overrides.map fun w => (romOffset w).toNat := by
  unfold KindRom.decode
  unfold KindRom.wordsOk at hk
  generalize k.overrides = ws at *
  induction ws with
  | nil => rfl
  | cons w ws ih =>
    simp only [List.all_cons, Bool.and_eq_true] at hk
    obtain ⟨e, he⟩ := Option.isSome_iff_exists.1 hk.1
    simp only [List.filterMap_cons, he, List.map_cons, (ofWord_eq_some.1 he).2, List.cons.injEq, true_and]
    exact ih hk.2

/-- The number of a kind's entries whose selector's code lies in a range is that of its words, where they pass WF4. -/
theorem decode_count (k : KindRom) (hk : k.wordsOk = true) (p : Selector → Bool) (lo hi : Byte)
    (hp : ∀ sel : Selector, p sel = (lo.toNat ≤ sel.code.toNat && sel.code.toNat ≤ hi.toNat)) :
    k.decode.count p = wordsOfCodes k lo hi := by
  unfold KindCfg.count KindRom.decode wordsOfCodes
  unfold KindRom.wordsOk at hk
  generalize k.overrides = ws at *
  induction ws with
  | nil => rfl
  | cons w ws ih =>
    simp only [List.all_cons, Bool.and_eq_true] at hk
    obtain ⟨e, he⟩ := Option.isSome_iff_exists.1 hk.1
    simp only [List.filterMap_cons, he, List.countP_cons, hp e.sel, (fields_of_ofFields (ofWord_eq_some.1 he).1).1]
    rw [ih hk.2]

end Sys2Proof.Machine
end

