-- ==== Sys2Proof/Tests/Slice0.lean ====
section
/-!
SUPPORT. The model's own tests: words written out from the encodings of spec/30_encoding.md, an ill-formed
configuration for each check of R79, the derived vectors of spec/95_test_vectors.md (cited by their T- names, under TC0),
and a witness for the hypotheses of every statement. Expected values come from spec/, not from the model.
-/

namespace Sys2Proof.Tests

open Sys2Proof Sys2Proof.Machine

set_option maxRecDepth 20000

/-! ### Helpers -/

/-- The next state of an outcome. -/
def after : Host.Outcome State Fault Refusal → Option State
  | .next t => some t
  | .fault _ => none
  | .refused _ => none

/-- A buffer with given first bytes and zeros behind them. -/
def buf (xs : List Byte) : Buf := Vector.ofFn fun i => xs.getD i.val 0x00

/-- The start of the encoder vectors: reset under TC0 with the test identity, ACTION 0, MASK 01, draws 5A A5. -/
def demo : State :=
  { State.reset with cfg := WfCfg.tc0, ident := #v[0xAB, 0xCD, 0x12, 0x34], mask := 0x01, draws := [0x5A, 0xA5] }

/-- `demo` with a received stream, in a learner state. -/
def heard (l : LState) (xs : List Byte) : State :=
  { demo with lstate := l, rxbuf := buf xs, rxlen := BitVec.ofNat 8 xs.length }

/-- The payload of T-ENC-1. -/
def enc1Payload : List Byte :=
  [0xAB, 0xCD, 0xC0, 0x11, 0x00, 0x05, 0x5A, 0x03, 0x01, 0x12, 0x34, 0xA5, 0x0A, 0xFF]

/-- The frame of T-ENC-1. -/
def enc1Frame : List Byte := List.replicate 16 0x55 ++ enc1Payload ++ [0x6A, 0xF4]

/-! ### Decoding (R71, R72): each opcode written out in binary -/

theorem test_decode_nop : decodeTableWord 8 0b00000000 = some .nop := by decide
theorem test_decode_encode : decodeTableWord 8 0b00000001 = some .encode := by decide
theorem test_decode_build : decodeTableWord 8 0b00000010 = some .build := by decide
theorem test_decode_finalize : decodeTableWord 8 0b00000011 = some .finalize := by decide
theorem test_decode_crcInit : decodeTableWord 8 0b00010000 = some .crcInit := by decide
theorem test_decode_crcUpdate : decodeTableWord 8 0b00010001 = some .crcUpdate := by decide
theorem test_decode_crcPayload : decodeTableWord 8 0b00010010 = some .crcPayload := by decide
theorem test_decode_learnStart : decodeTableWord 8 0b00100000 = some .learnStart := by decide
theorem test_decode_learnCancel : decodeTableWord 8 0b00100001 = some .learnCancel := by decide
theorem test_decode_scan : decodeTableWord 8 0b00100010 = some .scan := by decide
theorem test_decode_capture : decodeTableWord 8 0b00100011 = some .capture := by decide

/-- T-CTL-2, T-CTL-3: the neighbours of the opcodes are reserved. -/
theorem test_decode_reserved :
    ∀ v ∈ ([0x04, 0x0F, 0x13, 0x1F, 0x24, 0x80, 0xFF] : List Byte), decode v = .illegal v := by decide

/-- R82: bit 15 the direction, bits 14:8 the address, bits 7:0 the data. -/
theorem test_transaction_words :
    BusOp.ofWord 0b1000000000000001 = some (.write 0x00 0x01) ∧
    BusOp.ofWord 0b0101111100000000 = some (.read 0x5F) ∧
    BusOp.ofWord 0x8D20 = some (.write 0x0D 0x20) ∧ BusOp.ofWord 0x0142 = none := by decide

/-- The ROM words of TC0 (spec/95 section 1): an entry of each selector. -/
theorem test_override_words :
    Override.ofWord 0x0B0200 = some ⟨11, .ident 2⟩ ∧ Override.ofWord 0x060400 = some ⟨6, .nonce⟩ ∧
    Override.ofWord 0x0A0500 = some ⟨10, .rand⟩ ∧ Override.ofWord 0x0B0600 = some ⟨11, .action⟩ ∧
    Override.ofWord 0x070700 = some ⟨7, .chanHigh⟩ ∧ Override.ofWord 0x0A0808 = some ⟨10, .const 0x08⟩ ∧
    Override.ofWord 0x000900 = none ∧ Override.ofWord 0x000001 = none := by decide

/-- The Duplicate ROM words of TC0, as the table writes them. -/
theorem test_rom_words_of_tc0 :
    Cfg.tc0.toRom.dup.overrides =
      [0x000000, 0x010100, 0x020400, 0x030801, 0x040802, 0x050803, 0x060804, 0x070805, 0x080806, 0x090807, 0x0A0808,
        0x0B0200, 0x0C0300] := by decide

/-! ### Well-formedness (R79): TC0 passes, and one ill-formed ROM for each check is refused by its name -/

theorem test_wf_instr : Instr.WellFormed .scan = true := by decide

theorem test_wf_tc0 : Cfg.tc0.toRom.WellFormed = true ∧ Cfg.tc0.toRom.load = some WfCfg.tc0 := by decide

/-- A Command template of 25 bytes. -/
theorem test_wf1_refused :
    let c := { Cfg.tc0 with cmd := { Cfg.tc0.cmd with template := List.replicate 25 0x00 } }
    c.toRom.flaw? = some .wf1 ∧ c.toRom.load = none ∧ c.toRom.WellFormed = false := by decide

/-- An offset equal to the template's length. -/
theorem test_wf2_refused :
    let c := { Cfg.tc0 with fav := { Cfg.tc0.fav with overrides := [⟨10, .nonce⟩] } }
    c.toRom.flaw? = some .wf2 ∧ c.toRom.load = none := by decide

/-- Two entries at one offset. -/
theorem test_wf3_refused :
    let c := { Cfg.tc0 with fav := { Cfg.tc0.fav with overrides := [⟨3, .nonce⟩, ⟨3, .rand⟩] } }
    c.toRom.flaw? = some .wf3 ∧ c.toRom.load = none := by decide

/-- Selector code 0x09, and a value beside NONCE. -/
theorem test_wf4_refused :
    let r := Cfg.tc0.toRom
    { r with fav := { r.fav with overrides := [0x060900] } }.flaw? = some .wf4 ∧
    { r with fav := { r.fav with overrides := [0x060401] } }.load = none := by decide

/-- CH_INS beyond the template, and an override on the count byte. -/
theorem test_wf5_refused :
    { Cfg.tc0 with chIns := 14 }.toRom.flaw? = some .wf5 ∧ { Cfg.tc0 with chIns := 7 }.toRom.flaw? = some .wf5 ∧
    { Cfg.tc0 with chIns := 0 }.toRom.load = none := by decide

/-- A Command kind without RAND. -/
theorem test_wf6_refused :
    let c := { Cfg.tc0 with cmd := { Cfg.tc0.cmd with overrides := Cfg.tc0.cmd.overrides.filter (!·.sel.isRand) } }
    c.toRom.flaw? = some .wf6 ∧ c.toRom.load = none := by decide

/-- A Group kind without CHAN_HIGH. -/
theorem test_wf7_refused :
    let c := { Cfg.tc0 with grp := { Cfg.tc0.grp with overrides := Cfg.tc0.grp.overrides.filter (!·.sel.isChanHigh) } }
    c.toRom.flaw? = some .wf7 ∧ c.toRom.load = none := by decide

/-- A Duplicate kind with seven constants. -/
theorem test_wf8_refused :
    let c := { Cfg.tc0 with dup := { Cfg.tc0.dup with overrides := Cfg.tc0.dup.overrides.filter (·.offset ≠ 10) } }
    c.toRom.flaw? = some .wf8 ∧ c.toRom.load = none := by decide

/-- CAP_LEN 33, and a capture offset equal to CAP_LEN. -/
theorem test_wf10_refused :
    { Cfg.tc0 with capLen := 33 }.toRom.flaw? = some .wf10 ∧ { Cfg.tc0 with capOffB := 32 }.toRom.load = none := by
  decide

/-! ### A step runs the placed command from reset -/

/-- Each of the eleven commands, placed at reset, takes the machine to a next state. -/
theorem test_step_from_reset :
    ∀ w ∈ ([0x00, 0x01, 0x02, 0x03, 0x10, 0x11, 0x12, 0x20, 0x21, 0x22, 0x23] : List Nat),
      (after (step (State.reset.withFetchWord 8 w))).isSome = true := by decide

/-- T-SYN-1 through a step: SCAN at reset ends with WRONG_STATE. -/
theorem test_step_scan_from_reset :
    (after (step (State.reset.withFetchWord 8 0x22))).map (·.err) = some 7 := by decide

/-- With nothing pending the machine stays (notes/assumptions/1.md). -/
theorem test_step_idle : after (step demo) = some demo := by decide

/-! ### Control -/

/-- T-CTL-1. -/
theorem test_nop : (after (exec .nop { demo with err := 3 })) = some demo := by decide

/-- T-CTL-3: no draw is taken either. -/
theorem test_illegal :
    (after (step { demo with bus := [.write 0x00 0x13] })) = some { demo with err := 1 } := by decide

/-! ### The checksum generator -/

/-- T-CRC-C1. -/
theorem test_crcInit : (after (exec .crcInit { demo with crc := 0x1234, err := 1 })) = some demo := by decide

/-- T-CRC-S5: and CRC_IN is not consumed. -/
theorem test_crcUpdate :
    (after (exec .crcUpdate { demo with crc := 0x1234, crcIn := 0x56 })).map (fun t => (t.crc, t.crcIn)) =
      some (0x48C4, 0x56) := by decide

/-- T-CRC-P1. -/
theorem test_crcPayload :
    (after (exec .crcPayload { demo with plen := 2, payload := buf [0xAB, 0xCD], crc := 0x1234 })).map (·.crc) =
      some 0xDAE3 := by decide

/-- T-CRC-P4. -/
theorem test_crcPayload_badLen :
    (after (exec .crcPayload { demo with plen := 33, crc := 0x1234 })).map (fun t => (t.err, t.crc)) =
      some (6, 0x1234) := by decide

/-- T-CRC-11: the check value. -/
theorem test_crc_check : crc16 [0x31, 0x32, 0x33, 0x34, 0x35, 0x36, 0x37, 0x38, 0x39] = 0x375D := by decide

/-! ### The frame encoder -/

/-- T-ENC-1. -/
theorem test_encode_open : (after (exec .encode demo)).map (·.frame.toList) = some enc1Frame := by decide

/-- T-ENC-3: all six channels. -/
theorem test_encode_all_channels :
    (after (exec .encode { demo with action := 4, mask := 0x3F, draws := [0x00, 0xFF] })).map (·.frame.toList) =
      some (List.replicate 11 0x55 ++
        [0xAB, 0xCD, 0xC0, 0x11, 0x00, 0x05, 0x00, 0x08, 0x01, 0x02, 0x03, 0x04, 0x05, 0x06, 0x12, 0x34, 0xFF, 0x0E,
          0xFF, 0x93, 0xFE]) := by decide

/-- T-ENC-11: a join writes its highest channel only. -/
theorem test_build_join :
    (after (exec .build { demo with action := 7, mask := 0x05 })).map
        (fun t => (t.plen, t.payload.toList.take 10, t.lastNonce, t.lastRand, t.draws)) =
      some (10, [0xAB, 0xCD, 0xC0, 0x11, 0x00, 0x05, 0x5A, 0x03, 0x11, 0xFF], 0x5A, 0xA5, []) := by decide

/-- T-ENC-E7: BAD_ACTION comes before BAD_MASK, and nothing else changes. -/
theorem test_build_errors :
    (after (exec .build { demo with action := 0x0A, mask := 0xC0 })) =
      some { demo with action := 0x0A, mask := 0xC0, err := 2 } := by decide

/-- T-FIN-3. -/
theorem test_finalize :
    (after (exec .finalize { demo with plen := 2, payload := buf [0xAB, 0xCD] })).map
        (fun t => (t.frame.toList, t.frameValid)) =
      some (List.replicate 28 0x55 ++ [0xAB, 0xCD, 0xDA, 0xE3], true) := by decide

/-- T-FIN-6. -/
theorem test_finalize_overflow :
    (after (exec .finalize { demo with plen := 31 })) = some { demo with plen := 31, err := 5 } := by decide

/-! ### The matcher -/

/-- T-SYN-7. -/
theorem test_learnStart :
    (after (exec .learnStart
        { demo with
          lstate := .capturing, lid := #v[0xAB, 0xCD, 0x12, 0x34], prefixValid := true, fullValid := true,
          syncPos := 18 })).map (fun t => (t.lstatByte, t.lid, t.syncPos)) =
      some (0x01, #v[0x00, 0x00, 0x00, 0x00], 0x00) := by decide

/-- T-SYN-8. -/
theorem test_learnCancel :
    (after (exec .learnCancel
        { demo with lstate := .capturing, lid := #v[0xAB, 0xCD, 0x00, 0x00], prefixValid := true, syncPos := 18 })).map
        (fun t => (t.lstatByte, t.lid[0], t.lid[1], t.syncPos)) = some (0x04, 0xAB, 0xCD, 18) := by decide

/-- T-SCAN-1. -/
theorem test_scan :
    (after (exec .scan (heard .searching [0xAB, 0xCD, 0xC0, 0x11, 0x00, 0x05]))).map
        (fun t => (t.lstatByte, t.lid[0], t.lid[1], t.syncPos)) = some (0x06, 0xAB, 0xCD, 2) := by decide

/-- T-SCAN-12: the restart loss leaves the learner searching. -/
theorem test_scan_restart_loss :
    (after (exec .scan (heard .searching [0xAA, 0xBB, 0xC0, 0x11, 0xC0, 0x11, 0x00, 0x05]))).map
        (fun t => (t.lstatByte, t.err)) = some (0x01, 0) := by decide

/-- T-CAP-2: the frame of T-ENC-1. -/
theorem test_capture :
    (after (exec .capture { heard .capturing enc1Frame with prefixValid := true })).map
        (fun t => (t.lstatByte, t.lid[2], t.lid[3])) = some (0x0E, 0x12, 0x34) := by decide

/-- T-CAP-4: a short frame is ignored. -/
theorem test_capture_ignored :
    (after (exec .capture (heard .capturing [0x11, 0x22]))) = some (heard .capturing [0x11, 0x22]) := by decide

/-! ### The bus -/

/-- T-BUS-2, T-BUS-3, T-BUS-4: reserved and read-only locations take nothing. -/
theorem test_bus_ignored_writes :
    ∀ op ∈ [BusOp.write 0x15 0x77, BusOp.write 0x40 0x99, BusOp.write 0x01 0xFF],
      (after (step { demo with bus := [op] })) = some demo := by decide

/-- T-BUS-5 without its command: the two halves of CRC. -/
theorem test_bus_crc_halves :
    (after (Host.Core.run Sys2Proof.core 2 { demo with bus := [.write 0x09 0x12, .write 0x0A 0x34] })).map (·.crc) =
      some 0x1234 := by decide

/-- T-BUS-7. -/
theorem test_bus_reset :
    (after (step { demo with bus := [.reset], mask := 0xC0, err := 3, crc := 0 })).map
        (fun t => (t.busRead 0x09, t.busRead 0x0A, t.busRead 0x0C, t.busRead 0x01, t.busRead 0x03)) =
      some (0xFF, 0xFF, 0x00, 0x00, 0x00) := by decide

/-! ### Witnesses: for each statement with hypotheses, a state and operands that meet them, clause by clause -/

theorem witness_reserved_opcode : (0x04 : Byte) ∉ opcodes ∧ (0xFF : Byte) ∉ opcodes ∧
    { demo with bus := [.write 0x00 0x04] }.bus = .write 0x00 0x04 :: [] := by decide

theorem witness_decoded_command : { demo with bus := [.write 0x00 0x22] }.bus = .write 0x00 0x22 :: [] ∧
    decode 0x22 = .command .scan := by decide

theorem witness_transaction_word : (0xFFFF : Word16).getLsbD 15 = true ∧ (0x7F00 : Word16).extractLsb' 0 8 = 0x00 ∧
    (BusOp.write 0x7F 0xFF).toWord = some 0xFFFF ∧ (BusOp.read 0x7F).toWord = some 0x7F00 := by decide

theorem witness_override_word : Override.ofWord 0xFF08FF = some ⟨255, .const 0xFF⟩ ∧ 255 < 256 ∧
    (∀ v : Byte, Selector.chanHigh ≠ .const v) ∧ romCode 0xFF08FF = 0x08 ∧ romCode 0xFF0700 ≠ 0x08 ∧
    romValue 0xFF0700 = 0x00 := ⟨by decide, by decide, fun _ => nofun, by decide, by decide, by decide⟩

/-- IllFormedRomIsRefused: a ROM that loads, with TC0's Command counts read from its words; the refused ones are above. -/
theorem witness_rom : Cfg.tc0.toRom.load = some WfCfg.tc0 ∧ wordsOfCodes Cfg.tc0.toRom.cmd 0x00 0x03 = 4 ∧
    wordsOfCodes Cfg.tc0.toRom.dup 0x08 0x08 = 8 ∧ wordsOfCodes Cfg.tc0.toRom.grp 0x07 0x07 = 1 := by decide

/-- LSTAT's three states. -/
theorem witness_lstate : demo.lstate = .idle ∧ (heard .searching []).lstate = .searching ∧
    (heard .capturing []).lstate = .capturing := by decide

theorem witness_bus_read : { demo with bus := [.read 0x1F] }.bus = .read 0x1F :: [] ∧
    0x15 ≤ (0x15 : Addr).toNat ∧ (0x1F : Addr).toNat ≤ 0x1F := by decide

/-- The edges of the ignored ranges: none is CMD or RW, and the RW ranges begin and end beside them. -/
theorem witness_bus_write_edges :
    (∀ a ∈ ([0x01, 0x0C, 0x0E, 0x0F, 0x10, 0x11, 0x14, 0x15, 0x1F, 0x40, 0x5F] : List Addr),
      a ≠ 0x00 ∧ rwAddress a = false) ∧
    (∀ a ∈ ([0x02, 0x03, 0x04, 0x07, 0x08, 0x09, 0x0A, 0x0B, 0x0D, 0x20, 0x3F, 0x60, 0x7F] : List Addr),
      a ≠ 0x00 ∧ rwAddress a = true) := by decide

/-- The pending lists that clauses of the bus statements ask for. -/
theorem witness_bus_write : ∀ a ∈ ([0x02, 0x07, 0x0A, 0x1F, 0x3F, 0x5F, 0x60, 0x7F] : List Addr),
    { demo with bus := [.write a 0x99] }.bus = .write a 0x99 :: [] := by decide

theorem witness_reset : { demo with bus := [.reset, .read 0x00] }.bus = .reset :: [.read 0x00] := by decide

theorem witness_crcPayload : (32 : Byte).toNat ≤ 32 ∧ 32 < (33 : Byte).toNat ∧ { demo with plen := 0 }.plen = 0 ∧
    (let s := { demo with plen := 2, payload := buf [0xAB, 0xCD] }
     s.plen = 2 ∧ s.payload[0] = 0xAB ∧ s.payload[1] = 0xCD) := by decide

theorem witness_single_byte_change : (0x00 : Byte) ≠ 0x01 := by decide

theorem witness_channels : (0x20 : Byte).getLsbD 5 = true ∧ (0x01 : Byte).getLsbD 0 = true ∧
    (∀ j : Nat, 0 < j → j < 6 → (0x01 : Byte).getLsbD j = false) ∧
    (∀ i : Nat, i < 6 → (0xC0 : Byte).getLsbD i = false) := by
  refine ⟨by decide, by decide, ?_, ?_⟩
  · intro j h0 h6; interval_cases j <;> decide
  · intro i h6; interval_cases i <;> decide

theorem witness_bad_operands : 9 < (0x0A : Byte).toNat ∧ (0x09 : Byte).toNat ≤ 9 ∧
    (0x40 : Byte).extractLsb' 6 2 ≠ 0 := by decide

theorem witness_valid_operands : demo.ValidOperands ∧ { demo with action := 5, mask := 0x3F }.ValidOperands ∧
    { demo with action := 9, mask := 0x00 }.ValidOperands ∧ actionOf 9 = some .duplicate := by
  unfold State.ValidOperands
  decide

/-- CommandPayloadLayout: an override below CH_INS, one above it, a template byte without one, and a channel. -/
theorem witness_command_layout :
    (⟨6, .nonce⟩ : Override) ∈ demo.cfg.toCfg.cmd.overrides ∧ (⟨8, .ident 2⟩ : Override) ∈ demo.cfg.toCfg.cmd.overrides ∧
    12 < demo.cfg.toCfg.cmd.length ∧ 12 ≠ demo.cfg.toCfg.chIns - 1 ∧
    (∀ e ∈ demo.cfg.toCfg.cmd.overrides, e.offset ≠ 12) ∧ 0 < popcount6 demo.mask ∧ (5 : Byte).toNat ≤ 5 := by decide

/-- FixedLengthPayloadLayout and EmptyMaskGroupWritesZeroChannel. -/
theorem witness_fixed_layout :
    (⟨10, .const 0x08⟩ : Override) ∈ (demo.cfg.toCfg.kcfg .dup).overrides ∧
    15 < (demo.cfg.toCfg.kcfg .dup).length ∧ (∀ e ∈ (demo.cfg.toCfg.kcfg .dup).overrides, e.offset ≠ 15) ∧
    (⟨7, .chanHigh⟩ : Override) ∈ demo.cfg.toCfg.grp.overrides ∧
    { demo with action := 8, mask := 0x00 }.mask = 0x00 ∧ { demo with action := 8, mask := 0x00 }.action = 8 := by
  decide

theorem witness_finalize : (30 : Byte).toNat ≤ 30 ∧ 30 < (31 : Byte).toNat ∧ { demo with plen := 0 }.plen = 0 ∧
    exec .finalize demo = .next (finalizeState demo) := ⟨by decide, by decide, by decide, rfl⟩

/-- EncodeIsBuildThenFinalize, DrawsAreTakenByBuildsOnly: a BUILD that succeeds and one that does not. -/
theorem witness_build : exec .build demo = .next (buildState demo) ∧ (buildState demo).err = 0 ∧
    (buildState { demo with action := 10 }).err ≠ 0 := ⟨rfl, by decide, by decide⟩

/-- BytesAfterTheChannelListDoNotMove: two masks, and the offsets after the list. -/
theorem witness_bytes_after :
    exec .encode { demo with mask := 0x01 } = .next (encodeState { demo with mask := 0x01 }) ∧
    exec .encode { demo with mask := 0x3F } = .next (encodeState { demo with mask := 0x3F }) ∧
    demo.action.toNat ≤ 5 ∧ (0x3F : Byte).toNat < 64 ∧ demo.cfg.toCfg.chIns ≤ 8 ∧ 12 < demo.cfg.toCfg.cmd.length :=
  ⟨rfl, rfl, by decide, by decide, by decide, by decide⟩

/-- OnlyDrawnBytesVary: T-ENC-1 and T-ENC-9 differ, and only in the nonce byte. -/
theorem witness_only_drawn_bytes :
    exec .build { demo with draws := [0x5A, 0xA5], drawIndex := 0 } =
      .next (buildState { demo with draws := [0x5A, 0xA5], drawIndex := 0 }) ∧
    exec .build { demo with draws := [0x5B, 0xA5], drawIndex := 0 } =
      .next (buildState { demo with draws := [0x5B, 0xA5], drawIndex := 0 }) ∧
    actionOf demo.action = some .blindOpen ∧
    bufByte (buildState { demo with draws := [0x5A, 0xA5], drawIndex := 0 }).payload 6 ≠
      bufByte (buildState { demo with draws := [0x5B, 0xA5], drawIndex := 0 }).payload 6 :=
  ⟨rfl, rfl, by decide, by decide⟩

/-- DuplicateIgnoresTheChannels and GroupEncodesOnlyTheHighestChannel (T-ENC-12 and T-ENC-14). -/
theorem witness_masks : hsb6 0x3F = hsb6 0x20 ∧ (0x3F : Byte).toNat < 64 ∧
    exec .build { demo with action := 9, mask := 0x3F } = .next (buildState { demo with action := 9, mask := 0x3F }) ∧
    exec .build { demo with action := 8, mask := 0x20 } = .next (buildState { demo with action := 8, mask := 0x20 }) :=
  ⟨by decide, by decide, rfl, rfl⟩

/-- LearnCancelKeepsTheLearnedRemote: T-SYN-8's start. -/
theorem witness_learnCancel : { demo with lstate := .capturing, prefixValid := true }.busRead 0x0C = 0x06 := by decide

/-- ScanFollowsTheStream: idle; RXLEN 33, 5 and 6; no match (T-SCAN-3); the largest position (T-SCAN-13). -/
theorem witness_scan :
    demo.lstate ≠ .searching ∧ 32 < (33 : Byte).toNat ∧ (5 : Byte).toNat ≤ 5 ∧
    (heard .searching []).lstate = .searching ∧
    scanStream [0xAB, 0xC0, 0x11, 0x00, 0x05, 0x99] = none ∧
    (let s := heard .searching (List.replicate 26 0x11 ++ [0xAB, 0xCD, 0xC0, 0x11, 0x00, 0x05])
     s.rxlen.toNat = 32 ∧ scanStream (s.rxbuf.toList.take s.rxlen.toNat) = some 28) ∧
    (let s := heard .searching [0xAB, 0xCD, 0xC0, 0x11, 0x00, 0x05]
     s.rxlen = 6 ∧ s.rxbuf.toList.take 6 = [0xAB, 0xCD, 0xC0, 0x11, 0x00, 0x05]) := by decide

/-- AcceptedMatchIsThePattern and the learner's transitions: an accepting SCAN. -/
theorem witness_accepted_match :
    let s := heard .searching [0xAB, 0xCD, 0xC0, 0x11, 0x00, 0x05]
    exec .scan s = .next (scanState s) ∧ (scanState s).lstate = .capturing := ⟨rfl, by decide⟩

/-- ScanReadsNothingAfterTheMatch, ScanFindsACleanPattern, PatternAfterAPartialMatchIsMissed. -/
theorem witness_streams :
    scanStream [0xAB, 0xCD, 0xC0, 0x11, 0x00, 0x05, 0x77] = some 2 ∧
    2 ≤ ([0xAB, 0xCD] : List Byte).length ∧ (∀ b ∈ ([0xAB, 0xCD] : List Byte), b ≠ 0xC0) ∧
    (∀ part ∈ ([[0xC0], [0xC0, 0x11], [0xC0, 0x11, 0x00]] : List (List Byte)),
      part = [0xC0] ∨ part = [0xC0, 0x11] ∨ part = [0xC0, 0x11, 0x00]) := by decide

/-- ScanFindsACleanPattern's second clause: the bytes before the accepted copy in T-SCAN-7, T-SCAN-8 and T-SCAN-10. -/
theorem witness_closed_streams :
    (∀ pre ∈ ([[0xAB, 0xC0, 0xC0, 0x11, 0x00, 0x05, 0x77], [0xC0, 0x11, 0x00, 0x05, 0xAB], [0x01, 0x02, 0xC0, 0x11, 0x99, 0xAB]]
        : List (List Byte)), 1 ≤ pre.length) ∧
    scanStream ([0xAB, 0xC0, 0xC0, 0x11, 0x00, 0x05, 0x77] ++ [0x88]) = none ∧
    scanStream ([0xC0, 0x11, 0x00, 0x05, 0xAB] ++ [0xCD]) = none ∧
    scanStream ([0x01, 0x02, 0xC0, 0x11, 0x99, 0xAB] ++ [0xCD]) = none ∧
    (0x88 : Byte) ≠ 0xC0 ∧ (0xCD : Byte) ≠ 0x11 ∧ (0xCD : Byte) ≠ 0x00 := by decide

/-- CaptureTakesACommandLengthFrame: RXLEN 31, 32 and 33 under TC0; idle. -/
theorem witness_capture : (heard .capturing enc1Frame).lstate = .capturing ∧
    (heard .capturing enc1Frame).rxlen.toNat = demo.cfg.toCfg.capLen ∧ (31 : Byte).toNat ≠ demo.cfg.toCfg.capLen ∧
    (31 : Byte).toNat ≤ 32 ∧ 32 < (33 : Byte).toNat ∧ demo.lstate ≠ .capturing := by decide

/-- LearnerTransitionsFollowTheTable: a SCAN without a match keeps Searching, and the other cases have their instruction. -/
theorem witness_transitions :
    (scanState (heard .searching [0xAB])).lstate = .searching ∧ (scanState demo).err = 7 ∧
    (captureState demo).err = 7 ∧ (captureState (heard .capturing enc1Frame)).fullValid = true := by decide

/-- ErrorChangesNothingButErr. -/
theorem witness_error : exec .scan demo = .next (scanState demo) ∧ (scanState demo).err ≠ 0 := ⟨rfl, by decide⟩

/-- FlagsChangeOnlyAsStated: each flag set and cleared by a step. -/
theorem witness_flags :
    (after (step { demo with bus := [.write 0x00 0x01] })).map (fun t => (t.frameValid, t.err)) = some (true, 0) ∧
    (after (step { demo with bus := [.reset], frameValid := true })).map (·.frameValid) = some false ∧
    (after (step { heard .searching [0xAB, 0xCD, 0xC0, 0x11, 0x00, 0x05] with bus := [.write 0x00 0x22] })).map
      (·.prefixValid) = some true ∧
    (after (step { heard .capturing enc1Frame with bus := [.write 0x00 0x23] })).map (·.fullValid) = some true ∧
    (after (step { demo with bus := [.write 0x00 0x20], prefixValid := true, fullValid := true })).map
      (fun t => (t.prefixValid, t.fullValid)) = some (false, false) := by decide

/-- EveryStepKeepsTheInvariant: reset meets it, and a step leaves it. -/
theorem witness_invariant : State.reset.Inv ∧ step State.reset = .next State.reset := by
  refine ⟨⟨by unfold State.ErrProduced; decide, by unfold State.LearnerConsistent; decide, ?_, ?_⟩, rfl⟩
  · intro h; cases h
  · intro _; rfl

/-- LoadPseudosFillTheBuffers: no byte, P4's LDPAY bytes, and the longest list. -/
theorem witness_load : ldPay [] = some [.wr .plen 0] ∧
    ldRx [0xAB, 0xCD] = some [.wr (.rxbuf 0) 0xAB, .wr (.rxbuf 1) 0xCD, .wr .rxlen 2] ∧
    (List.replicate 32 (0x00 : Byte)).length ≤ 32 ∧ (ldPay (List.replicate 32 0x00)).isSome = true ∧ ldPay (List.replicate 33 0x00) = none := by decide

/-- LoopbackDeliversTheFrame: its 65 transactions. -/
theorem witness_loopback :
    ({ demo with bus := (loopback demo.frame).map Stmt.op }.bus = (loopback demo.frame).map Stmt.op ++ []) ∧
    (loopback demo.frame).length = 65 := by decide

end Sys2Proof.Tests
end

section
/-!
The flags of 10_state.md R38 and the reset table of R41. First what a pending transaction does to ERR, FRAME_VALID,
PREFIX_VALID and FULL_VALID, said once (`FlagStep`); then one `iff` for each flag after a command, lifted to a step.
-/

namespace Sys2Proof.Machine

variable {s t : State} {op : BusOp} {rest : List BusOp} {i : Instr}

/-! ### One pending transaction -/

theorem step_of_bus_cons (hb : s.bus = op :: rest) : step s = transact op (s.withBus rest) := by
  simp [step, takeTransaction, hb]

theorem encode_inj {i j : Instr} : encode i = encode j ↔ i = j := by
  rw [← decode_command_iff, (decode_command_iff _ i).2 rfl, Decoded.command.injEq]

theorem ne_encode_of_illegal {v w : Byte} (h : decode v = .illegal w) (i : Instr) : v ≠ encode i := by
  rintro rfl
  simp [(decode_command_iff _ i).2 rfl] at h

/-- The transaction that starts a command: the write of its opcode to CMD (R54). -/
def issue (i : Instr) : BusOp := .write 0x00 (encode i)

@[simp] theorem issue_inj {i j : Instr} : issue i = issue j ↔ i = j := by
  simp [issue, encode_inj]

@[simp] theorem issue_ne_reset (i : Instr) : issue i ≠ .reset := nofun

theorem ne_issue (hw : ∀ v, op ≠ .write 0x00 v) (i : Instr) : op ≠ issue i := hw _

/-! ### What a transaction does to the flags -/

/-- The two states agree on ERR, FRAME_VALID, PREFIX_VALID and FULL_VALID. -/
structure SameFlags (s t : State) : Prop where
  err : t.err = s.err
  frameValid : t.frameValid = s.frameValid
  prefixValid : t.prefixValid = s.prefixValid
  fullValid : t.fullValid = s.fullValid

theorem writeLoc_sameFlags (s : State) (v : Byte) (l : Loc) : SameFlags s (s.writeLoc v l) := by
  cases l <;> exact ⟨rfl, rfl, rfl, rfl⟩

/-- `FlagStep s op t`: transaction `op` on `s` leaves `t`, where of a register read or write no more is said than that
it keeps the flags. -/
inductive FlagStep (s : State) : BusOp → State → Prop where
  | command (i : Instr) (t : State) (h : Effect s i t) : FlagStep s (issue i) t
  | illegal (v : Byte) (h : ∀ i, v ≠ encode i) : FlagStep s (.write 0x00 v) (s.setErr .illegalCmd)
  | reset : FlagStep s .reset s.resetBlock
  | access (op : BusOp) (t : State) (hw : ∀ v, op ≠ .write 0x00 v) (hr : op ≠ .reset) (h : SameFlags s t) :
    FlagStep s op t

theorem step_flagStep (hb : s.bus = op :: rest) (h : step s = .next t) : FlagStep (s.withBus rest) op t := by
  rw [step_of_bus_cons hb] at h
  rcases transact_cases op (s.withBus rest) with ⟨a, rfl, ht⟩ | ⟨a, v, rfl, ha, ht⟩ | ⟨i, rfl, ht⟩ | ⟨v, rfl, hv, ht⟩ |
    ⟨rfl, ht⟩ <;> (rw [ht, Host.Outcome.next.injEq] at h; subst h)
  · exact .access _ _ nofun nofun ⟨rfl, rfl, rfl, rfl⟩
  · refine .access _ _ (fun w hw => ha ?_) nofun (writeLoc_sameFlags _ v _)
    exact (locOf_eq_iff a .cmd).2 (BusOp.write.inj hw).1
  · exact .command i _ (commandState_effect i _)
  · exact .illegal v (ne_encode_of_illegal hv)
  · exact .reset

/-- The transaction of a command has that command's effect and no other. -/
theorem FlagStep.effect (h : FlagStep s (issue i) t) : Effect s i t := by
  generalize ho : issue i = op at h
  cases h with
  | command j t h => exact issue_inj.1 ho ▸ h
  | illegal v h => exact absurd (BusOp.write.inj ho).2.symm (h i)
  | reset => exact absurd ho (issue_ne_reset i)
  | access op t hw => exact absurd ho.symm (hw _)

/-- A register access keeps ERR: only a CMD write or reset changes it (R38). -/
theorem FlagStep.err_eq (h : FlagStep s op t) (hw : ∀ v, op ≠ .write 0x00 v) (hr : op ≠ .reset) : t.err = s.err := by
  cases h with
  | command => exact absurd rfl (hw _)
  | illegal => exact absurd rfl (hw _)
  | reset => exact absurd rfl hr
  | access _ _ _ _ h => exact h.err

/-! ### No command reads ERR -/

/-- Every command overwrites ERR, and none of its guards reads it. -/
theorem commandState_err_irrelevant (i : Instr) (s : State) (e : BitVec 4) :
    commandState i { s with err := e } = commandState i s := by
  cases i <;> rfl

theorem runCommand_err_irrelevant (v : Byte) (s : State) (e : BitVec 4) :
    runCommand v { s with err := e } = runCommand v s := by
  rcases decode_cases v with ⟨i, hi, -⟩ | hv
  · rw [runCommand_command v i _ hi, runCommand_command v i _ hi, commandState_err_irrelevant]
  · rw [runCommand_illegal v v _ hv, runCommand_illegal v v _ hv]
    rfl

theorem step_err_irrelevant {v : Byte} (hb : s.bus = .write 0x00 v :: rest) (e : BitVec 4) :
    step { s with err := e } = step s := by
  rw [step_of_bus_cons hb, step_of_bus_cons (s := { s with err := e }) hb]
  exact runCommand_err_irrelevant v (s.withBus rest) e

/-! ### FRAME_VALID -/

theorem Effect.frameValid_iff (h : Effect s i t) :
    t.frameValid = true ↔ s.frameValid = true ∨ ((i = .encode ∨ i = .finalize) ∧ t.err = 0) := by
  cases h <;> simp [ErrCode.code]

theorem FlagStep.frameValid_iff (h : FlagStep s op t) :
    t.frameValid = true ↔ op ≠ .reset ∧
      (s.frameValid = true ∨ ((op = issue .encode ∨ op = issue .finalize) ∧ t.err = 0)) := by
  cases h with
  | command i t h => simp [h.frameValid_iff]
  | illegal v h => simp [issue, h]
  | reset => simp [State.reset]
  | access op t hw hr h => simp [h.frameValid, hr, ne_issue hw]

/-! ### PREFIX_VALID -/

theorem Effect.prefixValid_iff (h : Effect s i t) :
    t.prefixValid = true ↔
      (i = .scan ∧ s.lstate = .searching ∧ t.lstate = .capturing) ∨ (i ≠ .learnStart ∧ s.prefixValid = true) := by
  cases h <;> simp [*]

theorem FlagStep.prefixValid_iff (h : FlagStep s op t) :
    t.prefixValid = true ↔
      (op = issue .scan ∧ s.lstate = .searching ∧ t.lstate = .capturing) ∨
      (op ≠ issue .learnStart ∧ op ≠ .reset ∧ s.prefixValid = true) := by
  cases h with
  | command i t h => simp [h.prefixValid_iff]
  | illegal v h => simp [issue, h]
  | reset => simp [State.reset, (issue_ne_reset _).symm]
  | access op t hw hr h => simp [h.prefixValid, hr, ne_issue hw]

/-- A SCAN that takes Searching to Capturing raises no error (R165). -/
theorem Effect.err_of_scan_accepts (h : Effect s .scan t) (hs : s.lstate = .searching) (ht : t.lstate = .capturing) :
    t.err = 0 := by
  cases h with
  | scanWrongState h => exact absurd hs h
  | scanBadLen => simp [hs] at ht
  | scanNone => rfl
  | scanMatch => rfl

/-! ### FULL_VALID -/

theorem Effect.fullValid_iff (h : Effect s i t) :
    t.fullValid = true ↔
      (i = .capture ∧ s.rxlen.toNat = s.cfg.toCfg.capLen ∧ t.err = 0) ∨ (i ≠ .learnStart ∧ s.fullValid = true) := by
  cases h <;> simp [*, ErrCode.code]

theorem FlagStep.fullValid_iff (h : FlagStep s op t) :
    t.fullValid = true ↔
      (op = issue .capture ∧ s.rxlen.toNat = s.cfg.toCfg.capLen ∧ t.err = 0) ∨
      (op ≠ issue .learnStart ∧ op ≠ .reset ∧ s.fullValid = true) := by
  cases h with
  | command i t h => simp [h.fullValid_iff]
  | illegal v h => simp [issue, h]
  | reset => simp [State.reset, (issue_ne_reset _).symm]
  | access op t hw hr h => simp [h.fullValid, hr, ne_issue hw]

/-- A CAPTURE outside Capturing raises WRONG_STATE (R166). -/
theorem Effect.capturing_of_capture_ok (h : Effect s .capture t) (ht : t.err = 0) : s.lstate = .capturing := by
  cases h with
  | captureWrongState => simp [ErrCode.code] at ht
  | captureBadLen h => exact h
  | captureIgnored h => exact h
  | capture h => exact h

/-- Settles O49: the three `iff`s say when each flag is set after a step; ERR changes by CMD writes and reset alone, and
no command reads it. -/
theorem flagsChangeOnlyAsStated : Obligations.FlagsChangeOnlyAsStated := by
  intro s t op rest hb h
  have hf := step_flagStep hb h
  have hframe := hf.frameValid_iff
  have hprefix := hf.prefixValid_iff
  have hfull := hf.fullValid_iff
  simp only [State.withBus_frameValid, State.withBus_prefixValid, State.withBus_fullValid] at hframe hprefix hfull
  refine ⟨fun he => ?err_changed, ?err_unread, fun h0 h1 => ?frame_rises, fun ho he => ?frame_set,
    fun h1 h0 => ?frame_falls, fun h0 h1 => ?prefix_rises, fun ho hs ht => hprefix.2 (.inl ⟨ho, hs, ht⟩),
    fun h1 h0 => ?prefix_falls, fun h0 h1 => ?full_rises, fun ho he hl => hfull.2 (.inl ⟨ho, hl, he⟩),
    fun h1 h0 => ?full_falls, ?cleared⟩
  case err_changed =>
    by_contra hn
    rw [not_or, not_exists] at hn
    exact he (hf.err_eq hn.2 hn.1)
  case err_unread =>
    rintro v e rfl
    rw [step_err_irrelevant hb, h]
  case frame_rises =>
    exact (hframe.1 h1).2.resolve_left (by simp [h0])
  case frame_set =>
    exact hframe.2 ⟨by rcases ho with rfl | rfl <;> nofun, .inr ⟨ho, he⟩⟩
  case frame_falls =>
    by_contra hn
    simp [hframe.2 ⟨hn, .inl h1⟩] at h0
  case prefix_rises =>
    obtain ⟨rfl, hs, ht⟩ := (hprefix.1 h1).resolve_right (by simp [h0])
    exact ⟨rfl, hs, ht, hf.effect.err_of_scan_accepts hs ht⟩
  case prefix_falls =>
    by_contra hn
    rw [not_or] at hn
    simp [hprefix.2 (.inr ⟨hn.1, hn.2, h1⟩)] at h0
  case full_rises =>
    obtain ⟨rfl, hl, he⟩ := (hfull.1 h1).resolve_right (by simp [h0])
    exact ⟨rfl, hf.effect.capturing_of_capture_ok he, hl, he⟩
  case full_falls =>
    by_contra hn
    rw [not_or] at hn
    simp [hfull.2 (.inr ⟨hn.1, hn.2, h1⟩)] at h0
  case cleared =>
    rintro (rfl | rfl) <;> simp [Bool.eq_false_iff, hprefix, hfull, issue, encode]

/-! ### Reset -/

theorem reset_atResetValues : State.reset.AtResetValues := by
  simp [State.AtResetValues, State.reset]

/-- Settles O11: a reset step leaves `State.reset` up to the configuration and what is the host's. -/
theorem resetGivesTheTableValues : Obligations.ResetGivesTheTableValues :=
  ⟨reset_atResetValues, fun s rest hb =>
    ⟨(s.withBus rest).resetBlock, step_of_bus_cons hb, reset_atResetValues, rfl, rfl, rfl⟩⟩

end Sys2Proof.Machine
end

section
/-!
The register map of 20_memory.md, R51 to R53: what a bus read returns and what a bus write stores, location by location.
Both statements name addresses; the rules here name locations, and `addrOf` gives each location's address.
-/

namespace Sys2Proof.Machine

variable {s : State} {a : Addr} {v : Byte} {rest : List BusOp}

/-! ### Reads -/

theorem State.busRead_addrOf (s : State) (l : Loc) : s.busRead (addrOf l) = s.readLoc l := by
  rw [State.busRead, locOf_addrOf]

theorem step_read (hb : s.bus = .read a :: rest) : step s = .next ((s.withBus rest).observe (s.busRead a)) :=
  step_of_bus_cons hb

theorem locOf_reserved (h : 0x15 ≤ a.toNat) (h' : a.toNat ≤ 0x1F) :
    locOf a = .reserved ⟨a.toNat - 0x15, by omega⟩ := by
  rw [locOf, dif_neg (by omega), dif_pos (by omega)]

theorem State.busRead_reserved (s : State) (h : 0x15 ≤ a.toNat) (h' : a.toNat ≤ 0x1F) : s.busRead a = 0x00 := by
  rw [State.busRead, locOf_reserved h h', State.readLoc]

/-- The fields of STATUS (R36). -/
theorem State.statusByte_fields (s : State) :
    s.statusByte.extractLsb' 0 4 = s.err ∧ s.statusByte.getLsbD 4 = s.frameValid ∧
      s.statusByte.extractLsb' 5 3 = 0 := by
  unfold State.statusByte
  generalize s.frameValid = f
  generalize s.err = e
  revert f e
  decide

/-- The fields of LSTAT (R37). -/
theorem State.lstatByte_fields (s : State) :
    s.lstatByte.extractLsb' 0 2 = s.lstate.code ∧ s.lstatByte.getLsbD 2 = s.prefixValid ∧
      s.lstatByte.getLsbD 3 = s.fullValid ∧ s.lstatByte.extractLsb' 4 4 = 0 := by
  unfold State.lstatByte
  generalize s.lstate.code = c
  generalize s.prefixValid = p
  generalize s.fullValid = f
  revert c p f
  decide

/-- Settles O8: each address is its location's (`busRead_addrOf`), and the two status bytes have the fields of R36 and
R37. -/
theorem busReadFollowsTheRegisterMap : Obligations.BusReadFollowsTheRegisterMap := by
  refine ⟨fun s a rest hb => step_read hb, fun s => ?_⟩
  have hread := s.busRead_addrOf
  obtain ⟨hl, hprefix, hfull, hunused⟩ := s.lstatByte_fields
  refine ⟨hread .cmd, ?status, hread .action, hread .mask, hread (.ident 0), hread (.ident 1), hread (.ident 2),
    hread (.ident 3), hread .plen, ?crc, hread .crcIn, ?lstat, hread .rxlen, hread .syncPos, hread .lastNonce,
    hread .lastRand, hread (.lid 0), hread (.lid 1), hread (.lid 2), hread (.lid 3),
    fun a h h' => s.busRead_reserved h h', fun i => hread (.payload i), fun i => hread (.frame i),
    fun i => hread (.rxbuf i)⟩
  case status =>
    rw [show s.busRead 0x01 = s.statusByte from hread .status]
    exact s.statusByte_fields
  case crc =>
    rw [show s.busRead 0x09 = crcHiByte s.crc from hread .crcHi, show s.busRead 0x0A = crcLoByte s.crc from hread .crcLo]
    exact crcBytes_append s.crc
  case lstat =>
    rw [show s.busRead 0x0C = s.lstatByte from hread .lstat, hl]
    exact ⟨congrArg LState.code, congrArg LState.code, congrArg LState.code, hprefix, hfull, hunused⟩

/-! ### Writes -/

theorem step_write {l : Loc} (hl : l ≠ .cmd) (hb : s.bus = .write (addrOf l) v :: rest) :
    step s = .next ((s.withBus rest).writeLoc v l) := by
  rw [step_of_bus_cons hb, transact, State.busWrite, locOf_addrOf, if_neg hl]

theorem step_write_cmd (hb : s.bus = .write 0x00 v :: rest) : step s = runCommand v (s.withBus rest) :=
  step_of_bus_cons hb

/-- `rwAddress`, which lists the RW addresses as ranges, agrees with the locations' own mark (R51). -/
theorem rwAddress_addrOf (l : Loc) : rwAddress (addrOf l) = l.isRW := by
  cases l with
  | ident j => revert j; decide
  | lid j => revert j; decide
  | reserved j => revert j; decide
  | payload i => revert i; decide
  | frame i => revert i; decide
  | rxbuf i => revert i; decide
  | _ => rfl

/-- R53: an R or reserved location takes nothing. -/
theorem State.writeLoc_of_isRW_eq_false (s : State) (v : Byte) {l : Loc} (h : l.isRW = false) :
    s.writeLoc v l = s := by
  cases l <;> simp [Loc.isRW] at h <;> rfl

theorem step_write_ignored (ha : a ≠ 0x00) (hw : rwAddress a = false) (hb : s.bus = .write a v :: rest) :
    step s = .next (s.withBus rest) := by
  obtain ⟨l, rfl⟩ : ∃ l, addrOf l = a := ⟨_, addrOf_locOf a⟩
  have hl : l ≠ .cmd := fun h => ha (h ▸ rfl)
  rw [step_write hl hb, State.writeLoc_of_isRW_eq_false _ _ (rwAddress_addrOf l ▸ hw)]

/-- Settles O9: each RW address is its location's (`step_write`), CMD runs the decoded byte, and no other location takes
the byte. -/
theorem busWriteFollowsTheRegisterMap : Obligations.BusWriteFollowsTheRegisterMap := by
  intro s v rest
  refine ⟨step_write (l := .action) nofun, step_write (l := .mask) nofun, fun j => step_write (l := .ident j) nofun,
    step_write (l := .plen) nofun, step_write (l := .crcHi) nofun, step_write (l := .crcLo) nofun,
    step_write (l := .crcIn) nofun, step_write (l := .rxlen) nofun, fun i => step_write (l := .payload i) nofun,
    fun i => step_write (l := .rxbuf i) nofun, fun i hb hd => ?command, fun hb hd => ?illegal,
    fun a ha hw hb => step_write_ignored ha hw hb⟩
  case command =>
    rw [step_write_cmd hb, runCommand_command v i _ hd, exec_eq]
    rfl
  case illegal =>
    rw [step_write_cmd hb, runCommand_illegal v v _ hd]
    rfl

end Sys2Proof.Machine
end

section
/-!
The encodings of 30_encoding.md: the opcode map of a command byte (R71), and the 16-bit listing word of a transaction
(R82), whose direction bit, address and data are appended high to low.
-/

namespace Sys2Proof.Machine

/-! ### Command bytes -/

theorem encode_mem_opcodes (i : Instr) : encode i ∈ opcodes := by
  cases i <;> decide

theorem decode_encode (i : Instr) : decode (encode i) = .command i :=
  (decode_command_iff _ i).2 rfl

theorem decode_illegal_of_notMem_opcodes {v : Byte} (hv : v ∉ opcodes) : decode v = .illegal v := by
  refine (decode_cases v).resolve_left ?_
  rintro ⟨i, -, rfl⟩
  exact hv (encode_mem_opcodes i)

/-- Settles O1: `encode` lists the map's rows, and a byte that decodes to a command is one of its opcodes. -/
theorem commandDecodeFollowsTheOpcodeMap : Obligations.CommandDecodeFollowsTheOpcodeMap :=
  ⟨decode_encode .nop, decode_encode .encode, decode_encode .build, decode_encode .finalize, decode_encode .crcInit,
    decode_encode .crcUpdate, decode_encode .crcPayload, decode_encode .learnStart, decode_encode .learnCancel,
    decode_encode .scan, decode_encode .capture, fun _ => decode_illegal_of_notMem_opcodes, decode_command_iff⟩

/-! ### The fields of a transaction word -/

section Fields

variable (d : BitVec 1) (a : Addr) (v : Byte) (w : Word16)

theorem transactionWord_msb : (d ++ a ++ v : Word16).msb = d.msb :=
  BitVec.msb_append.trans BitVec.msb_append

theorem transactionWord_addr : (d ++ a ++ v : Word16).extractLsb' 8 7 = a := by
  rw [BitVec.extractLsb'_append_eq_of_le (by decide)]
  exact BitVec.extractLsb'_append_eq_right

theorem transactionWord_data : (d ++ a ++ v : Word16).extractLsb' 0 8 = v :=
  BitVec.extractLsb'_append_eq_right

/-- A 16-bit word is its direction bit, its address and its data. -/
theorem transactionWord_of_fields :
    (BitVec.ofBool w.msb ++ w.extractLsb' 8 7 ++ w.extractLsb' 0 8 : Word16) = w := by
  have hbit : BitVec.ofBool w.msb = w.extractLsb' 15 1 := by
    simp [BitVec.eq_of_getLsbD_eq_iff, BitVec.msb_eq_getLsbD_last]
  have hhigh : w.extractLsb' 15 1 ++ w.extractLsb' 8 7 = w.extractLsb' 8 8 :=
    BitVec.extractLsb'_append_extractLsb'_eq_extractLsb' rfl
  rw [hbit, hhigh]
  exact BitVec.extractLsb'_append_extractLsb'

end Fields

/-! ### Words and transactions -/

variable {w : Word16} {op : BusOp}

/-- A transaction's word is read back as it. -/
theorem BusOp.ofWord_of_toWord (h : op.toWord = some w) : BusOp.ofWord w = some op := by
  cases op with
  | read a =>
    cases h
    rw [BusOp.ofWord, transactionWord_msb, transactionWord_addr, transactionWord_data]
    rfl
  | write a v =>
    cases h
    rw [BusOp.ofWord, transactionWord_msb, transactionWord_addr, transactionWord_data]
    rfl
  | reset => cases h

/-- R82's layout: a write word has any data, a read word the data 0x00. -/
theorem BusOp.exists_toWord_of_layout (h : w.msb = true ∨ w.extractLsb' 0 8 = 0x00) :
    ∃ op : BusOp, op.toWord = some w := by
  have hw := transactionWord_of_fields w
  cases hm : w.msb with
  | true =>
    rw [hm] at hw
    exact ⟨.write (w.extractLsb' 8 7) (w.extractLsb' 0 8), congrArg some hw⟩
  | false =>
    rw [hm, h.resolve_left (by simp [hm])] at hw
    exact ⟨.read (w.extractLsb' 8 7), congrArg some hw⟩

/-- Settles O2: the fields are those of the appended word, and a word of the layout is its transaction's word, which is
read back (`ofWord_of_toWord`). -/
theorem transactionWordRoundTrip : Obligations.TransactionWordRoundTrip := by
  refine ⟨fun a v => ⟨_, rfl, BusOp.ofWord_of_toWord rfl, transactionWord_msb 1#1 a v, transactionWord_addr 1#1 a v,
      transactionWord_data 1#1 a v⟩,
    fun a => ⟨_, rfl, BusOp.ofWord_of_toWord rfl, transactionWord_msb 0#1 a 0#8, transactionWord_addr 0#1 a 0#8,
      transactionWord_data 0#1 a 0#8⟩,
    fun w h => ?layout, BusOp.ofWord_of_toWord rfl, BusOp.ofWord_of_toWord rfl, BusOp.ofWord_of_toWord rfl,
    BusOp.ofWord_of_toWord rfl⟩
  case layout =>
    obtain ⟨op, hop⟩ := BusOp.exists_toWord_of_layout h
    exact ⟨op, BusOp.ofWord_of_toWord hop, hop⟩

end Sys2Proof.Machine
end

section
/-!
The checksum commands of 40_crc.md, R103 to R105: the next state of each of the three, the stream of CRC_UPDATEs as one
fold of `crcStep`, and the prefix of PAYLOAD that CRC_PAYLOAD reads.
-/

namespace Sys2Proof.Machine

/-! ### The next state of each command -/

theorem exec_crcInit (s : State) : exec .crcInit s = .next { s with crc := 0xFFFF, err := 0 } := exec_eq _ _

theorem exec_crcUpdate (s : State) :
    exec .crcUpdate s = .next { s with crc := crcStep s.crc s.crcIn, err := 0 } := exec_eq _ _

theorem exec_crcPayload_of_le {s : State} (h : s.plen.toNat ≤ 32) :
    exec .crcPayload s = .next { s with crc := crc16 (bufTake s.payload s.plen.toNat), err := 0 } := by
  obtain ⟨h', -⟩ | ⟨-, e⟩ := crcPayloadState_cases s
  · omega
  · rw [exec_eq, commandState, e]
    rfl

theorem exec_crcPayload_of_gt {s : State} (h : 32 < s.plen.toNat) :
    exec .crcPayload s = .next { s with err := 6 } := by
  obtain ⟨-, e⟩ | ⟨h', -⟩ := crcPayloadState_cases s
  · rw [exec_eq, commandState, e]
    rfl
  · omega

/-! ### CRC_INIT -/

theorem State.busRead_crcHi (s : State) : s.busRead 0x09 = crcHiByte s.crc := s.busRead_addrOf .crcHi

theorem State.busRead_crcLo (s : State) : s.busRead 0x0A = crcLoByte s.crc := s.busRead_addrOf .crcLo

/-- Settles O14: the state `exec_crcInit` names holds 0xFF in both halves of CRC, and CRC_INIT maps it to itself. -/
theorem crcInitSetsTheInitialValue : Obligations.CrcInitSetsTheInitialValue :=
  have hhi : crcHiByte 0xFFFF = 0xFF := rfl
  have hlo : crcLoByte 0xFFFF = 0xFF := rfl
  fun s => ⟨exec_crcInit s, _, exec_crcInit s, (State.busRead_crcHi _).trans hhi, (State.busRead_crcLo _).trans hlo,
    exec_crcInit _⟩

/-! ### A stream of CRC_UPDATEs -/

/-- A CRC_UPDATE per byte continues the checksum from CRC, whatever CRC holds. -/
theorem crcFeed_crc (s : State) (xs : List Byte) : ∃ u, crcFeed s xs = .next u ∧ u.crc = crcFrom s.crc xs := by
  induction xs generalizing s with
  | nil => exact ⟨s, rfl, rfl⟩
  | cons b bs ih =>
    rw [crcFeed, exec_crcUpdate]
    exact ih _

/-- Settles O15: the step is `exec_crcUpdate`, and the stream after CRC_INIT is `crcFeed_crc` from 0xFFFF. -/
theorem crcUpdateAppliesOneStep : Obligations.CrcUpdateAppliesOneStep := by
  refine ⟨exec_crcUpdate, by decide, by decide, fun s xs => ?_⟩
  obtain ⟨u, hfeed, hcrc⟩ := crcFeed_crc { s with crc := crcInitial, err := 0 } xs
  exact ⟨_, u, exec_crcInit s, hfeed, hcrc⟩

/-! ### CRC_PAYLOAD -/

theorem bufTake_two (b : Buf) : bufTake b 2 = [b[0], b[1]] := by
  simp [bufTake, List.take_add_one]

/-- R105's example. -/
theorem crc16_ab_cd : crc16 [0xAB, 0xCD] = 0xDAE3 := by
  have hfirst : crcStep 0xFFFF 0xAB = 0xE9AE := by decide
  have hsecond : crcStep 0xE9AE 0xCD = 0xDAE3 := by decide
  simp only [crc16, crcFrom, crcInitial, List.foldl, hfirst, hsecond]

/-- Settles O16: PLEN decides between the two cases, the corner and the example are the first case at PLEN 0 and 2. -/
theorem crcPayloadChecksumsThePayload : Obligations.CrcPayloadChecksumsThePayload := by
  refine fun s => ⟨exec_crcPayload_of_le, exec_crcPayload_of_gt, fun h => ?empty, fun h h0 h1 => ?two⟩
  case empty =>
    have htake : bufTake s.payload s.plen.toNat = [] := by
      rw [h]
      exact List.take_zero
    rw [exec_crcPayload_of_le (by simp [h]), htake]
    rfl
  case two =>
    have htake : bufTake s.payload s.plen.toNat = [0xAB, 0xCD] := by
      rw [h, ← h0, ← h1]
      exact bufTake_two s.payload
    rw [exec_crcPayload_of_le (by simp [h]), htake, crc16_ab_cd]

end Sys2Proof.Machine
end

section
/-!
The frame encoder of 41_frame_encoder.md: FINALIZE (R133, R134), whose 32 wire bytes are read here in their three parts,
and ENCODE as BUILD and then FINALIZE (R135).
-/

namespace Sys2Proof.Machine

/-! ### The wire bytes -/

section WireBytes

variable {preamble : Byte} {xs : List Byte} {i : Nat}

theorem wireBytes_getElem?_preamble (hi : i < 30 - xs.length) : (wireBytes preamble xs)[i]? = some preamble := by
  simp [wireBytes, List.getElem?_append, hi]

theorem wireBytes_getElem?_payload (hi : i < xs.length) :
    (wireBytes preamble xs)[30 - xs.length + i]? = xs[i]? := by
  simp [wireBytes, List.getElem?_append, hi]

theorem wireBytes_getElem?_checksum (hx : xs.length ≤ 30) (j : Nat) :
    (wireBytes preamble xs)[30 + j]? = (checksumBytes (crc16 xs))[j]? := by
  have hlen : (List.replicate (30 - xs.length) preamble ++ xs).length = 30 := by simp; omega
  rw [wireBytes, ← List.append_assoc, List.getElem?_append_right (by omega), hlen, Nat.add_sub_cancel_left]

end WireBytes

/-- Without a payload the frame is preamble bytes and the checksum's initial value. -/
theorem wireBytes_nil (preamble : Byte) : wireBytes preamble [] = List.replicate 30 preamble ++ [0xFF, 0xFF] := rfl

theorem bufByte_finalizeBytes (c : Cfg) {xs : List Byte} (hx : xs.length ≤ 30) (n : Nat) :
    bufByte (finalizeBytes c xs) n = (wireBytes c.preamble xs)[n]?.getD 0x00 := by
  rw [bufByte, finalizeBytes_toList c xs hx, List.getD_eq_getElem?_getD]

theorem finalizeBytes_frameLayout (c : Cfg) (payload : Buf) {p : Nat} (hp : p ≤ 30) :
    FrameLayout c.preamble p payload (finalizeBytes c (bufTake payload p)) := by
  have hlen : (bufTake payload p).length = p := bufTake_length payload p (by omega)
  have hbyte := bufByte_finalizeBytes c (xs := bufTake payload p) (by omega)
  have hsum := wireBytes_getElem?_checksum (preamble := c.preamble) (xs := bufTake payload p) (by omega)
  refine ⟨fun i hi => ?preamble, fun i hi => ?payload, ?crcHi, ?crcLo⟩
  case preamble =>
    rw [hbyte, wireBytes_getElem?_preamble (by omega), Option.getD_some]
  case payload =>
    have hwire := wireBytes_getElem?_payload (preamble := c.preamble) (xs := bufTake payload p) (i := i) (by omega)
    rw [hlen] at hwire
    rw [hbyte, hwire, bufTake_getElem? payload p i hi, bufByte, List.getD_eq_getElem?_getD]
  case crcHi =>
    rw [hbyte, hsum 0]
    rfl
  case crcLo =>
    rw [hbyte, hsum 1]
    rfl

/-! ### FINALIZE -/

theorem exec_finalize_of_le {s : State} (h : s.plen.toNat ≤ 30) :
    exec .finalize s = .next
      { s with
        frame := finalizeBytes s.cfg.toCfg (bufTake s.payload s.plen.toNat), frameValid := true, err := 0 } := by
  obtain ⟨h', -⟩ | ⟨-, e⟩ := finalizeState_cases s
  · omega
  · rw [exec_eq, commandState, e]

theorem exec_finalize_of_gt {s : State} (h : 30 < s.plen.toNat) : exec .finalize s = .next { s with err := 5 } := by
  obtain ⟨-, e⟩ | ⟨h', -⟩ := finalizeState_cases s
  · rw [exec_eq, commandState, e]
    rfl
  · omega

/-- Settles O26: PLEN decides between the two cases, the frame has the layout of `finalizeBytes_frameLayout`, and the
corner is the first case at PLEN 0. -/
theorem finalizeBuildsTheFrame : Obligations.FinalizeBuildsTheFrame := by
  refine fun s => ⟨fun h => ⟨_, exec_finalize_of_le h, rfl, finalizeBytes_frameLayout _ _ h⟩, exec_finalize_of_gt,
    fun h => ?empty⟩
  case empty =>
    have htake : bufTake s.payload s.plen.toNat = [] := by
      rw [h]
      exact List.take_zero
    refine ⟨_, exec_finalize_of_le (by simp [h]), ?_⟩
    rw [htake, finalizeBytes_toList _ _ (by simp), wireBytes_nil]

/-! ### ENCODE -/

/-- BUILD and ENCODE run one validation: they end in the same error, or ENCODE finalizes what BUILD leaves (R135). -/
theorem buildState_encodeState_cases (s : State) :
    (∃ e : ErrCode, e.code ≠ 0 ∧ buildState s = s.setErr e ∧ encodeState s = s.setErr e) ∨
    (∃ a, buildState s = buildAction s a ∧ encodeState s = finalizeState (buildAction s a)) := by
  obtain ⟨-, hv⟩ | ⟨-, -, hv⟩ | ⟨-, a, -, hv⟩ := validateBuild_cases s
  · exact .inl ⟨.badAction, by decide, by simp [buildState, hv], by simp [encodeState, hv]⟩
  · exact .inl ⟨.badMask, by decide, by simp [buildState, hv], by simp [encodeState, hv]⟩
  · exact .inr ⟨a, by simp [buildState, hv], by simp [encodeState, hv]⟩

/-- Settles O28: an error of the shared validation is ENCODE's end too, and after a BUILD that passed it FINALIZE cannot
fail (`finalizeState_buildAction`). -/
theorem encodeIsBuildThenFinalize : Obligations.EncodeIsBuildThenFinalize := by
  intro s t ht
  rw [exec_eq, commandState, Host.Outcome.next.injEq] at ht
  simp only [exec_eq, commandState]
  obtain ⟨e, he, hbuild, hencode⟩ | ⟨a, hbuild, hencode⟩ := buildState_encodeState_cases s
  · obtain rfl : s.setErr e = t := hbuild.symm.trans ht
    exact ⟨fun _ => ⟨congrArg _ hencode, rfl⟩, fun h0 => absurd h0 he⟩
  · obtain rfl : buildAction s a = t := hbuild.symm.trans ht
    refine ⟨fun h => absurd (buildAction_err s a) h, fun _ => ⟨_, congrArg _ hencode, rfl, ?_⟩⟩
    rw [finalizeState_buildAction]
    exact ⟨rfl, rfl⟩

end Sys2Proof.Machine
end

section
/-!
The learner of 42_sync_matcher.md: LEARN_START and LEARN_CANCEL (R163, R164), SCAN and CAPTURE case by case (R165, R166),
and the transitions of R160, read off the cases of `Effect`.
-/

namespace Sys2Proof.Machine

variable {s t : State} {i : Instr}

/-! ### LEARN_START and LEARN_CANCEL -/

theorem State.busRead_lstat (s : State) : s.busRead 0x0C = s.lstatByte := s.busRead_addrOf .lstat

theorem exec_learnStart (s : State) :
    exec .learnStart s = .next
      { s with
        lstate := .searching, lid := Vector.replicate 4 0x00, prefixValid := false, fullValid := false,
        syncPos := 0x00, err := 0 } := exec_eq _ _

theorem exec_learnCancel (s : State) : exec .learnCancel s = .next { s with lstate := .idle, err := 0 } := exec_eq _ _

/-- Settles O35: LSTAT of the state `exec_learnStart` names is the code of Searching below two clear flags. -/
theorem learnStartClearsTheLearnedRemote : Obligations.LearnStartClearsTheLearnedRemote :=
  have hlstat : 0#4 ++ BitVec.ofBool false ++ BitVec.ofBool false ++ LState.searching.code = 0x01 := by decide
  fun s => ⟨exec_learnStart s, _, exec_learnStart s, (State.busRead_lstat _).trans hlstat⟩

/-- Settles O36: LSTAT 0x06 fixes the two flags (`lstatByte_fields`), and LEARN_CANCEL keeps them. -/
theorem learnCancelKeepsTheLearnedRemote : Obligations.LearnCancelKeepsTheLearnedRemote := by
  have hlstat :
      0#4 ++ BitVec.ofBool ((0x06 : Byte).getLsbD 3) ++ BitVec.ofBool ((0x06 : Byte).getLsbD 2) ++ LState.idle.code =
        0x04 := by decide
  refine fun s => ⟨exec_learnCancel s, fun hread => ⟨_, exec_learnCancel s, ?_⟩⟩
  obtain ⟨-, hprefix, hfull, -⟩ := s.lstatByte_fields
  rw [← State.busRead_lstat, hread] at hprefix hfull
  rw [State.busRead_lstat, State.lstatByte, ← hprefix, ← hfull]
  exact hlstat

/-! ### SCAN -/

theorem exec_scan_of_not_searching (h : s.lstate ≠ .searching) : exec .scan s = .next { s with err := 7 } := by
  obtain ⟨-, e⟩ | ⟨hs, -⟩ | ⟨hs, -⟩ | ⟨hs, -⟩ := scanState_cases s
  · rw [exec_eq, commandState, e]
    rfl
  all_goals exact absurd hs h

theorem exec_scan_of_gt (h : s.lstate = .searching) (hlen : 32 < s.rxlen.toNat) :
    exec .scan s = .next { s with err := 6 } := by
  obtain ⟨hs, -⟩ | ⟨-, -, e⟩ | ⟨-, hle, -⟩ | ⟨-, hle, -⟩ := scanState_cases s
  · exact absurd h hs
  · rw [exec_eq, commandState, e]
    rfl
  all_goals omega

theorem exec_scan_of_none (h : s.lstate = .searching) (hlen : s.rxlen.toNat ≤ 32)
    (hscan : scanStream (bufTake s.rxbuf s.rxlen.toNat) = none) : exec .scan s = .next { s with err := 0 } := by
  obtain ⟨hs, -⟩ | ⟨-, hgt, -⟩ | ⟨-, -, -, e⟩ | ⟨-, -, p, hp, -⟩ := scanState_cases s
  · exact absurd h hs
  · omega
  · rw [exec_eq, commandState, e]
    rfl
  · simp [hscan] at hp

theorem exec_scan_of_some {p : Nat} (h : s.lstate = .searching) (hlen : s.rxlen.toNat ≤ 32)
    (hscan : scanStream (bufTake s.rxbuf s.rxlen.toNat) = some p) :
    exec .scan s = .next ((acceptMatch s p).setErr .ok) := by
  obtain ⟨hs, -⟩ | ⟨-, hgt, -⟩ | ⟨-, -, hnone, -⟩ | ⟨-, -, q, hq, -, -, e⟩ := scanState_cases s
  · exact absurd h hs
  · omega
  · simp [hscan] at hnone
  · obtain rfl : p = q := by simpa [hscan] using hq
    rw [exec_eq, commandState, e]

/-- A stream of five bytes has no room for two bytes and the pattern behind them. -/
theorem scanStream_eq_none_of_length_le {b : List Byte} (h : b.length ≤ 5) : scanStream b = none := by
  cases hb : scanStream b with
  | none => rfl
  | some p =>
    have := scanFrom_bounds _ _ _ _ hb
    omega

theorem bufByte_eq_bufTake_getD (b : Buf) {n j : Nat} (h : j < n) : bufByte b j = (bufTake b n).getD j 0x00 := by
  rw [bufByte, List.getD_eq_getElem?_getD, List.getD_eq_getElem?_getD, bufTake_getElem? b n j h]

section LearnedBytes

variable (v : Vector Byte 4) (a b : Byte)

theorem set_low_bytes : (v.set 0 a).set 1 b = #v[a, b, v[2], v[3]] := by
  refine Vector.ext fun j hj => ?_
  interval_cases j <;> simp

theorem set_high_bytes : (v.set 2 a).set 3 b = #v[v[0], v[1], a, b] := by
  refine Vector.ext fun j hj => ?_
  interval_cases j <;> simp

end LearnedBytes

/-- The state after an accepted match, LID0 to LID3 byte by byte. -/
theorem acceptMatch_ok_eq (s : State) (p : Nat) :
    (acceptMatch s p).setErr .ok =
      { s with
        lid := #v[bufByte s.rxbuf (p - 2), bufByte s.rxbuf (p - 1), s.lid[2], s.lid[3]]
        prefixValid := true, syncPos := BitVec.ofNat 8 p, lstate := .capturing, err := 0 } := by
  rw [← set_low_bytes]
  rfl

/-- Settles O37: one lemma a case of `scanState_cases`; a stream of at most five bytes is a case without a match, and the
source's scenario is a match at 2. -/
theorem scanFollowsTheStream : Obligations.ScanFollowsTheStream := by
  refine fun s => ⟨exec_scan_of_not_searching, exec_scan_of_gt, exec_scan_of_none, fun p h hlen hscan => ?matched,
    fun h hlen => ?short, fun h hlen hstream => ?scenario⟩
  case matched =>
    rw [exec_scan_of_some h hlen hscan, acceptMatch_ok_eq]
  case short =>
    refine exec_scan_of_none h (by omega) (scanStream_eq_none_of_length_le ?_)
    rw [bufTake_length _ _ (by omega)]
    exact hlen
  case scenario =>
    have htake : bufTake s.rxbuf 6 = [0xAB, 0xCD, 0xC0, 0x11, 0x00, 0x05] := hstream
    have hscan : scanStream (bufTake s.rxbuf s.rxlen.toNat) = some 2 := by
      rw [hlen]
      exact (congrArg scanStream htake).trans (by decide)
    have hbyte {j : Nat} (hj : j < 6) := bufByte_eq_bufTake_getD s.rxbuf hj
    rw [exec_scan_of_some h (by simp [hlen]) hscan, acceptMatch_ok_eq, hbyte (by decide), hbyte (by decide), htake]
    rfl

/-! ### CAPTURE -/

/-- The state after an accepted command-length frame, LID0 to LID3 byte by byte. -/
theorem acceptCapture_ok_eq (s : State) :
    (acceptCapture s).setErr .ok =
      { s with
        lid := #v[s.lid[0], s.lid[1], bufByte s.rxbuf s.cfg.toCfg.capOffA, bufByte s.rxbuf s.cfg.toCfg.capOffB]
        fullValid := true, err := 0 } := by
  rw [← set_high_bytes]
  rfl

/-- Settles O42: the four clauses are the four cases of `captureState_cases`; a frame of CAP_LEN bytes is not too long
because CAP_LEN is at most 32 (`WfCfg.capture_bounds`). -/
theorem captureTakesACommandLengthFrame : Obligations.CaptureTakesACommandLengthFrame := by
  intro s
  have hcap := s.cfg.capture_bounds.1
  simp only [exec_eq, commandState]
  obtain ⟨hs, e⟩ | ⟨hs, hlen, e⟩ | ⟨hs, hlen, hne, e⟩ | ⟨hs, hlen, heq, e⟩ := captureState_cases s <;> rw [e]
  · exact ⟨fun _ => rfl, fun h => absurd h hs, fun h => absurd h hs, fun h => absurd h hs⟩
  · exact ⟨absurd hs, fun _ _ => rfl, by omega, by omega⟩
  · exact ⟨absurd hs, by omega, fun _ _ _ => rfl, fun _ h => absurd h hne⟩
  · exact ⟨absurd hs, by omega, fun _ _ h => absurd heq h, fun _ _ => congrArg _ (acceptCapture_ok_eq s)⟩

/-! ### The transitions of the learner -/

/-- SCAN in Searching takes LID0 and LID1 from an accepted match, or changes ERR alone (R160). -/
theorem Effect.scan_from_searching (h : Effect s .scan t) (hs : s.lstate = .searching) :
    (t.lstate = .capturing ∧ t.prefixValid = true ∧
      ∃ p, s.rxlen.toNat ≤ 32 ∧ scanStream (bufTake s.rxbuf s.rxlen.toNat) = some p ∧
        t.syncPos.toNat = p ∧ t.lid[0] = bufByte s.rxbuf (p - 2) ∧ t.lid[1] = bufByte s.rxbuf (p - 1)) ∨
    ((s.rxlen.toNat ≤ 32 → scanStream (bufTake s.rxbuf s.rxlen.toNat) = none) ∧ t = { s with err := t.err }) := by
  cases h with
  | scanWrongState h => exact absurd hs h
  | scanBadLen h hgt => exact .inr ⟨by omega, rfl⟩
  | scanNone h hlen hscan => exact .inr ⟨fun _ => hscan, rfl⟩
  | scanMatch h hlen p hscan h2 hp =>
    have hpos : (BitVec.ofNat 8 p).toNat = p := by
      rw [BitVec.toNat_ofNat]
      omega
    exact .inl ⟨rfl, rfl, p, hlen, hscan, hpos, by simp, by simp⟩

/-- CAPTURE in Capturing stays there; a frame of CAP_LEN bytes completes the remote, any other changes ERR alone
(R160). -/
theorem Effect.capture_from_capturing (h : Effect s .capture t) (hs : s.lstate = .capturing) :
    t.lstate = .capturing ∧
    (s.rxlen.toNat = s.cfg.toCfg.capLen → t.fullValid = true ∧
      t.lid[2] = bufByte s.rxbuf s.cfg.toCfg.capOffA ∧ t.lid[3] = bufByte s.rxbuf s.cfg.toCfg.capOffB) ∧
    (s.rxlen.toNat ≠ s.cfg.toCfg.capLen → t = { s with err := t.err }) := by
  have hcap := s.cfg.capture_bounds.1
  cases h with
  | captureWrongState h => exact absurd hs h
  | captureBadLen h hgt => exact ⟨hs, by omega, fun _ => rfl⟩
  | captureIgnored h hlen hne => exact ⟨hs, fun h => absurd h hne, fun _ => rfl⟩
  | capture h hlen heq => exact ⟨hs, fun _ => ⟨rfl, by simp, by simp⟩, fun h => absurd heq h⟩

/-- Three commands move LSTATE, one of them from Searching alone (R160). -/
theorem Effect.mover_of_lstate_ne (h : Effect s i t) (hne : t.lstate ≠ s.lstate) :
    i = .learnStart ∨ i = .learnCancel ∨ (i = .scan ∧ s.lstate = .searching) := by
  cases h with
  | learnStart => exact .inl rfl
  | learnCancel => exact .inr (.inl rfl)
  | scanMatch h => exact .inr (.inr ⟨rfl, h⟩)
  | _ => exact absurd rfl hne

/-- Settles O43: each row of the table is what its command's lemma says, and `mover_of_lstate_ne` says that there is no
other transition. -/
theorem learnerTransitionsFollowTheTable : Obligations.LearnerTransitionsFollowTheTable := by
  intro i s t ht
  have h := exec_cases ht
  refine ⟨?start, ?cancel, ?scan, ?capture, ?scan_refused, ?capture_refused, h.mover_of_lstate_ne⟩
  case start =>
    rintro rfl
    cases h
    exact ⟨rfl, by simp, rfl, rfl⟩
  case cancel =>
    rintro rfl
    cases h
    exact ⟨rfl, rfl, rfl, rfl⟩
  case scan =>
    rintro rfl hs
    exact h.scan_from_searching hs
  case capture =>
    rintro rfl hs
    exact h.capture_from_capturing hs
  case scan_refused =>
    rintro rfl hs
    exact Host.Outcome.next.inj (ht.symm.trans (exec_scan_of_not_searching hs))
  case capture_refused =>
    rintro rfl hs
    obtain ⟨hrefused, -⟩ := captureTakesACommandLengthFrame s
    exact Host.Outcome.next.inj (ht.symm.trans (hrefused hs))

end Sys2Proof.Machine
end

section
/-!
The control commands of 43_control.md: NOP (R180) and the illegal command of the reserved opcodes (R181, R72).
-/

namespace Sys2Proof.Machine

/-! ### NOP -/

/-- Settles O44: what NOP leaves is its row of `commandState`. -/
theorem nopOnlyClearsErr : Obligations.NopOnlyClearsErr :=
  fun s => exec_eq .nop s

/-! ### The reserved opcodes -/

theorem reservedOpcodes_length :
    ((List.range 256).filter fun n => BitVec.ofNat 8 n ∉ opcodes).length = 245 := by
  decide +kernel

theorem step_write_reserved_opcode {s : State} {v : Byte} {rest : List BusOp} (hb : s.bus = .write 0x00 v :: rest)
    (hv : v ∉ opcodes) : step s = .next ((s.withBus rest).setErr .illegalCmd) := by
  rw [step_write_cmd hb, runCommand_illegal v v _ (decode_illegal_of_notMem_opcodes hv)]

/-- Settles O7: the reserved opcodes are counted, and a byte that is no opcode decodes to the illegal command, which
writes ERR alone. -/
theorem reservedOpcodeOnlySetsErr : Obligations.ReservedOpcodeOnlySetsErr :=
  ⟨reservedOpcodes_length, fun _ _ _ => step_write_reserved_opcode⟩

end Sys2Proof.Machine
end

section
/-!
The error rule of 60_exceptions.md, R194: an error writes ERR alone. Said once of the cases of a command (`Effect`), then
of every write to CMD, which runs a command or the illegal command.
-/

namespace Sys2Proof.Machine

variable {s t : State} {i : Instr} {v : Byte}

/-- A case of a command's rule that ends with an error writes ERR alone; each case that writes more ends with ERR 0. -/
theorem Effect.eq_of_err_ne_zero (h : Effect s i t) (he : t.err ≠ 0) : t = { s with err := t.err } := by
  cases h with
  | buildBadAction | buildBadMask | encodeBadAction | encodeBadMask => rfl
  | finalizeOverflow | crcPayloadBadLen => rfl
  | scanWrongState | scanBadLen | captureWrongState | captureBadLen => rfl
  | nop | scanNone | captureIgnored => exact absurd rfl he
  | build _ a => exact absurd (buildAction_err s a) he
  | encode | finalize | crcInit | crcUpdate | crcPayload => exact absurd rfl he
  | learnStart | learnCancel | scanMatch | capture => exact absurd rfl he

/-- A write to CMD that ends with an error writes ERR alone, whether its byte is an opcode or reserved. -/
theorem runCommand_eq_of_err_ne_zero (h : runCommand v s = .next t) (he : t.err ≠ 0) : t = { s with err := t.err } := by
  obtain ⟨i, hi, -⟩ | hv := decode_cases v
  · rw [runCommand_command v i s hi, Host.Outcome.next.injEq] at h
    subst h
    exact (commandState_effect i s).eq_of_err_ne_zero he
  · rw [runCommand_illegal v v s hv, Host.Outcome.next.injEq] at h
    subst h
    rfl

/-- Settles O45: the rule of a command's cases for `exec`, and of a CMD write for the step that takes it up. -/
theorem errorChangesNothingButErr : Obligations.ErrorChangesNothingButErr :=
  ⟨fun _ _ _ h => (exec_cases h).eq_of_err_ne_zero,
    fun _ _ _ _ hb h => runCommand_eq_of_err_ne_zero ((step_write_cmd hb).symm.trans h)⟩

end Sys2Proof.Machine
end

section
/-!
The configuration ROM of 30_encoding.md, R76 to R79: an override entry and its 24-bit word determine each other, a
configuration's ROM loads as that configuration, and the checks of the decoded record are checks of the ROM's words.
-/

namespace Sys2Proof

open Machine

/-! ### The override word -/

section Word

variable (e : Override)

theorem romOffset_toWord : romOffset e.toWord = BitVec.ofNat 8 e.offset := word24_high _ _ _

theorem romCode_toWord : romCode e.toWord = e.sel.code := word24_middle _ _ _

theorem romValue_toWord : romValue e.toWord = e.sel.value := word24_low _ _ _

variable {e}

theorem ofWord_toWord (h : e.offset < 256) : Override.ofWord e.toWord = some e := by
  refine ofWord_eq_some.2 ⟨?_, ?_⟩
  · rw [romCode_toWord, romValue_toWord, ofFields_code_value]
  · rw [romOffset_toWord, BitVec.toNat_ofNat, Nat.mod_eq_of_lt h]

theorem toWord_of_ofWord {w : BitVec 24} (h : Override.ofWord w = some e) : e.toWord = w ∧ e.offset < 256 := by
  obtain ⟨hsel, hoff⟩ := ofWord_eq_some.1 h
  obtain ⟨hcode, hvalue⟩ := fields_of_ofFields hsel
  refine ⟨?_, hoff ▸ (romOffset w).isLt⟩
  rw [Override.toWord, hoff, hcode, hvalue, BitVec.ofNat_toNat, BitVec.setWidth_eq]
  exact word24_fields w

end Word

/-- A selector's code is at most 0x08, and its value field is 0x00 unless the code is 0x08 (R76, WF4). -/
theorem Selector.code_le_value (sel : Selector) : sel.code.toNat ≤ 0x08 ∧ (sel.code ≠ 0x08 → sel.value = 0x00) := by
  cases sel with
  | ident j => exact ⟨by revert j; decide, fun _ => rfl⟩
  | const v => exact ⟨Nat.le_refl 8, fun h => absurd rfl h⟩
  | nonce | rand | action | chanHigh => exact ⟨by decide, fun _ => rfl⟩

theorem ofFields_zero_isSome : ∀ c : Byte, c.toNat ≤ 0x08 → (Selector.ofFields c 0x00).isSome = true := by
  decide

/-- WF4, on the fields of one word. -/
theorem ofWord_isSome_iff (w : BitVec 24) :
    (∃ e, Override.ofWord w = some e) ↔ (romCode w).toNat ≤ 0x08 ∧ (romCode w ≠ 0x08 → romValue w = 0x00) := by
  constructor
  · rintro ⟨e, he⟩
    obtain ⟨hcode, hvalue⟩ := fields_of_ofFields (ofWord_eq_some.1 he).1
    exact hcode ▸ hvalue ▸ e.sel.code_le_value
  · rintro ⟨hcode, hvalue⟩
    have hsel : ∃ sel, Selector.ofFields (romCode w) (romValue w) = some sel := by
      by_cases h8 : romCode w = 0x08
      · exact ⟨.const (romValue w), by simp [Selector.ofFields, h8]⟩
      · rw [hvalue h8]
        exact Option.isSome_iff_exists.1 (ofFields_zero_isSome _ hcode)
    obtain ⟨sel, hsel⟩ := hsel
    exact ⟨⟨(romOffset w).toNat, sel⟩, ofWord_eq_some.2 ⟨hsel, rfl⟩⟩

/-- Settles O3: an entry's word has the entry's fields, so it is read back; a word that is read is put together from its
fields; and WF4 says which words are read. -/
theorem overrideWordRoundTrip : Obligations.OverrideWordRoundTrip := by
  refine ⟨⟨fun _ => rfl, rfl, rfl, rfl, rfl, fun _ => rfl⟩, fun e h => ⟨ofWord_toWord h, ?offset, romCode_toWord e,
    fun v hv => ?const, fun hv => ?other⟩, fun w e => toWord_of_ofWord, ofWord_isSome_iff⟩
  case offset => rw [romOffset_toWord, BitVec.toNat_ofNat, Nat.mod_eq_of_lt h]
  case const => rw [romValue_toWord, hv, Selector.value]
  case other =>
    rw [romValue_toWord]
    cases hsel : e.sel with
    | const v => exact absurd hsel (hv v)
    | _ => rfl

/-! ### The ROM of a configuration -/

section KindRoundTrip

variable {k : KindCfg} (h : ∀ e ∈ k.overrides, e.offset < 256)
include h

theorem KindCfg.toRom_wordsOk : k.toRom.wordsOk = true := by
  simp only [KindRom.wordsOk, KindCfg.toRom, List.all_map, List.all_eq_true]
  intro e he
  simp [ofWord_toWord (h e he)]

theorem KindCfg.decode_toRom : k.toRom.decode = k := by
  have hmap : (k.overrides.map Override.toWord).filterMap Override.ofWord = k.overrides := by
    rw [List.filterMap_map]
    refine (List.filterMap_congr fun e he => ?_).trans List.filterMap_some
    exact ofWord_toWord (h e he)
  exact congrArg (KindCfg.mk k.template) hmap

end KindRoundTrip

theorem WfCfg.offset_lt_256 (c : WfCfg) (k : Kind) : ∀ e ∈ (c.toCfg.kcfg k).overrides, e.offset < 256 := by
  intro e he
  have := c.offset_lt k he
  have := c.kcfg_length_le k
  omega

theorem WfCfg.toRom_wf4 (c : WfCfg) : c.toCfg.toRom.wf4 = true := by
  simp only [Rom.wf4, Bool.and_eq_true]
  exact ⟨⟨⟨KindCfg.toRom_wordsOk (c.offset_lt_256 .cmd), KindCfg.toRom_wordsOk (c.offset_lt_256 .grp)⟩,
    KindCfg.toRom_wordsOk (c.offset_lt_256 .dup)⟩, KindCfg.toRom_wordsOk (c.offset_lt_256 .fav)⟩

theorem WfCfg.decode_toRom (c : WfCfg) : c.toCfg.toRom.decode = c.toCfg := by
  have hcmd := KindCfg.decode_toRom (c.offset_lt_256 .cmd)
  have hgrp := KindCfg.decode_toRom (c.offset_lt_256 .grp)
  have hdup := KindCfg.decode_toRom (c.offset_lt_256 .dup)
  have hfav := KindCfg.decode_toRom (c.offset_lt_256 .fav)
  simp only [Cfg.kcfg] at hcmd hgrp hdup hfav
  simp only [Rom.decode, Cfg.toRom, hcmd, hgrp, hdup, hfav]

/-- What loads is the record the ROM holds, where the words and the record pass the checks. -/
theorem Rom.load_eq_some_iff (r : Rom) (c : WfCfg) : r.load = some c ↔ r.wf4 = true ∧ r.decode = c.toCfg := by
  obtain ⟨c, hc⟩ := c
  by_cases h4 : r.wf4 = true
  · by_cases hwf : r.decode.wf = true
    · simp [Rom.load, h4, hwf]
    · have hne : r.decode ≠ c := fun h => hwf (h ▸ hc)
      simp [Rom.load, h4, hwf, hne]
  · simp [Rom.load, h4]

/-- Settles O4: every offset of a well-formed configuration fits the word's eight bits, so each entry is read back, of
every kind. -/
theorem romRoundTripOfEveryConfiguration : Obligations.RomRoundTripOfEveryConfiguration :=
  fun c => (Rom.load_eq_some_iff _ c).2 ⟨c.toRom_wf4, c.decode_toRom⟩

/-! ### A load and its refusal -/

theorem Rom.exists_load_iff (r : Rom) : (∃ c, r.load = some c) ↔ r.WellFormed = true := by
  simp only [Rom.load_eq_some_iff, Rom.WellFormed, Bool.and_eq_true, exists_and_left]
  exact and_congr_right fun _ => ⟨fun ⟨c, hc⟩ => hc ▸ c.ok, fun h => ⟨⟨r.decode, h⟩, rfl⟩⟩

/-- The checks are asked one after the other, and a ROM without a failed one passes them all. -/
theorem Rom.flaw?_eq_none_iff (r : Rom) : r.flaw? = none ↔ r.WellFormed = true := by
  simp only [Rom.flaw?, Rom.WellFormed, Cfg.wf, Bool.and_eq_true]
  split_ifs <;> simp_all

theorem Rom.load_eq_none_iff (r : Rom) : r.load = none ↔ ∃ f, r.flaw? = some f := by
  rw [← Option.isSome_iff_exists, Option.isSome_iff_ne_none, Ne, r.flaw?_eq_none_iff, ← r.exists_load_iff,
    Option.eq_none_iff_forall_ne_some, not_exists]

/-! ### The checks of a kind on its ROM words -/

theorem KindRom.wordsOk_iff (k : KindRom) :
    k.wordsOk = true ↔ ∀ w ∈ k.overrides, (romCode w).toNat ≤ 0x08 ∧ (romCode w ≠ 0x08 → romValue w = 0x00) := by
  simp only [KindRom.wordsOk, List.all_eq_true, Option.isSome_iff_exists, ofWord_isSome_iff]

section KindChecks

variable {k : KindRom} (hk : k.wordsOk = true)
include hk

/-- A property of the entries' offsets is one of the words' offset fields. -/
theorem KindRom.forall_offset_iff (p : Nat → Prop) :
    (∀ e ∈ k.decode.overrides, p e.offset) ↔ ∀ w ∈ k.overrides, p (romOffset w).toNat := by
  rw [← List.forall_mem_map (f := Override.offset), decode_offsets k hk, List.forall_mem_map]

theorem KindRom.offsetsInRange_iff :
    k.decode.offsetsInRange = true ↔ ∀ w ∈ k.overrides, (romOffset w).toNat < k.template.length := by
  simp only [KindCfg.offsetsInRange, List.all_eq_true, decide_eq_true_eq]
  exact KindRom.forall_offset_iff hk (· < k.template.length)

theorem KindRom.offsetsDistinct_iff : k.decode.offsetsDistinct = true ↔ (k.overrides.map romOffset).Nodup := by
  have hmap : k.overrides.map (fun w => (romOffset w).toNat) = (k.overrides.map romOffset).map BitVec.toNat := by
    rw [List.map_map]
    rfl
  rw [KindCfg.offsetsDistinct, decide_eq_true_eq, decode_offsets k hk, hmap,
    List.nodup_map_iff fun _ _ => BitVec.eq_of_toNat_eq]

/-- The census of a kind counts its words by their codes. -/
theorem KindRom.census_decode :
    k.decode.census =
      [wordsOfCodes k 0x00 0x03, wordsOfCodes k 0x04 0x04, wordsOfCodes k 0x05 0x05, wordsOfCodes k 0x06 0x06,
        wordsOfCodes k 0x07 0x07, wordsOfCodes k 0x08 0x08] := by
  rw [KindCfg.census, decode_count k hk _ 0x00 0x03, decode_count k hk _ 0x04 0x04, decode_count k hk _ 0x05 0x05,
    decode_count k hk _ 0x06 0x06, decode_count k hk _ 0x07 0x07, decode_count k hk _ 0x08 0x08]
  all_goals
    intro sel
    cases sel with
    | ident j => revert j; decide
    | _ => rfl

end KindChecks

/-! ### The checks of a ROM on its words -/

section RomChecks

variable (r : Rom)

theorem Rom.wf1_decode_iff :
    r.decode.wf1 = true ↔ (1 ≤ r.cmd.template.length ∧ r.cmd.template.length ≤ 24) ∧
      ∀ k ∈ [r.grp, r.dup, r.fav], 1 ≤ k.template.length ∧ k.template.length ≤ 30 := by
  simp only [Cfg.wf1, Bool.and_eq_true, decide_eq_true_eq]
  simp [Rom.decode, KindRom.decode, KindCfg.length, and_assoc]

/-- WF2, WF3 and WF4 ask the same of each kind. -/
theorem Rom.kindChecks_iff :
    (r.wf4 = true ∧ r.decode.wf2 = true ∧ r.decode.wf3 = true) ↔
      ∀ k ∈ [r.cmd, r.grp, r.dup, r.fav],
        k.wordsOk = true ∧ k.decode.offsetsInRange = true ∧ k.decode.offsetsDistinct = true := by
  simp only [Rom.wf4, Cfg.wf2, Cfg.wf3, Rom.decode, Bool.and_eq_true, List.forall_mem_cons, List.not_mem_nil,
    false_imp_iff, implies_true, and_true]
  tauto

theorem Rom.wf5_decode_iff (hk : r.cmd.wordsOk = true) :
    r.decode.wf5 = true ↔ 1 ≤ r.chIns ∧ r.chIns ≤ r.cmd.template.length ∧
      ∀ w ∈ r.cmd.overrides, (romOffset w).toNat ≠ r.chIns - 1 := by
  simp only [Cfg.wf5, Bool.and_eq_true, decide_eq_true_eq, List.all_eq_true, and_assoc]
  exact and_congr_right fun _ => and_congr_right fun _ => KindRom.forall_offset_iff hk (· ≠ r.chIns - 1)

theorem Rom.wf10_decode_iff :
    r.decode.wf10 = true ↔ r.capLen ≤ 32 ∧ r.capOffA < r.capLen ∧ r.capOffB < r.capLen := by
  simp only [Cfg.wf10, Bool.and_eq_true, decide_eq_true_eq, and_assoc]
  rfl

end RomChecks

/-- WF6, WF7 and WF8: a census is its six counts of words. -/
theorem KindRom.census_eq_iff {k : KindRom} (hk : k.wordsOk = true) (ids nonces rands actions chans consts : Nat) :
    (k.decode.census == [ids, nonces, rands, actions, chans, consts]) = true ↔
      wordsOfCodes k 0x00 0x03 = ids ∧ wordsOfCodes k 0x04 0x04 = nonces ∧ wordsOfCodes k 0x05 0x05 = rands ∧
        wordsOfCodes k 0x06 0x06 = actions ∧ wordsOfCodes k 0x07 0x07 = chans ∧ wordsOfCodes k 0x08 0x08 = consts := by
  rw [KindRom.census_decode hk]
  simp

/-- WF2, WF3 and WF4 of a kind, on its words. -/
theorem KindRom.checks_iff (k : KindRom) :
    (k.wordsOk = true ∧ k.decode.offsetsInRange = true ∧ k.decode.offsetsDistinct = true) ↔
      (∀ w ∈ k.overrides, (romOffset w).toNat < k.template.length) ∧ (k.overrides.map romOffset).Nodup ∧
        ∀ w ∈ k.overrides, (romCode w).toNat ≤ 0x08 ∧ (romCode w ≠ 0x08 → romValue w = 0x00) := by
  rw [← k.wordsOk_iff, ← and_assoc (c := k.wordsOk = true), and_comm (b := k.wordsOk = true)]
  exact and_congr_right fun hk => and_congr (KindRom.offsetsInRange_iff hk) (KindRom.offsetsDistinct_iff hk)

/-- The checks in the order of R79, with WF2, WF3 and WF4 gathered by kind. -/
theorem Rom.wellFormed_iff (r : Rom) :
    r.WellFormed = true ↔ r.decode.wf1 = true ∧
      (∀ k ∈ [r.cmd, r.grp, r.dup, r.fav],
        k.wordsOk = true ∧ k.decode.offsetsInRange = true ∧ k.decode.offsetsDistinct = true) ∧
      r.decode.wf5 = true ∧ r.decode.wf6 = true ∧ r.decode.wf7 = true ∧ r.decode.wf8 = true ∧ r.decode.wf10 = true := by
  rw [← r.kindChecks_iff]
  simp only [Rom.WellFormed, Cfg.wf, Bool.and_eq_true]
  tauto

/-- Settles O5: a load is the absence of a flaw, and each check is its condition on the ROM's words; the offsets and the
counts of the words are those of the record's entries because the words decode (WF4). -/
theorem illFormedRomIsRefused : Obligations.IllFormedRomIsRefused := by
  refine fun r => ⟨(r.exists_load_iff.trans r.wellFormed_iff).trans ?_, r.load_eq_none_iff,
    fun c hc => ((r.load_eq_some_iff c).1 hc).2.symm, r.flaw?_eq_none_iff.symm⟩
  rw [r.wf1_decode_iff, and_assoc]
  refine and_congr_right fun _ => and_congr_right fun _ => ?_
  simp only [← KindRom.checks_iff]
  refine and_congr_right fun hkinds => ?_
  have hwords {k : KindRom} (hk : k ∈ [r.cmd, r.grp, r.dup, r.fav]) : k.wordsOk = true := (hkinds k hk).1
  have hcmd : r.cmd.wordsOk = true := hwords (by simp)
  have hgrp : r.grp.wordsOk = true := hwords (by simp)
  have hdup : r.dup.wordsOk = true := hwords (by simp)
  exact and_congr (r.wf5_decode_iff hcmd) <| and_congr (KindRom.census_eq_iff hcmd 4 1 1 1 0 0) <|
    and_congr (KindRom.census_eq_iff hgrp 2 1 0 1 1 0) <| and_congr (KindRom.census_eq_iff hdup 4 1 0 0 0 8)
      r.wf10_decode_iff

/-! ### What a census rules out -/

/-- A kind whose census counts no CHAN_HIGH has no CHAN_HIGH entry. -/
theorem KindCfg.sel_ne_chanHigh {k : KindCfg} (h : k.count Selector.isChanHigh = 0) {e : Override}
    (he : e ∈ k.overrides) : e.sel ≠ .chanHigh := by
  intro hsel
  have hnone := List.countP_eq_zero.1 h e he
  simp [hsel, Selector.isChanHigh] at hnone

theorem WfCfg.cmd_dup_chanHigh_count (w : WfCfg) :
    w.toCfg.cmd.count Selector.isChanHigh = 0 ∧ w.toCfg.dup.count Selector.isChanHigh = 0 := by
  obtain ⟨-, -, -, -, h6, -, h8, -⟩ := w.checks
  simp only [Cfg.wf6, Cfg.wf8, KindCfg.census, beq_iff_eq, List.cons.injEq] at h6 h8
  tauto

end Sys2Proof
end

section
/-!
What every command does, read off its cases (`Effect`): the code it ends with (60_exceptions.md R191), the registers it
leaves alone (10_state.md R21 to R32), its draws (41_frame_encoder.md R123) and the operand errors (R122); and the step
that runs a command (20_memory.md R54).
-/

namespace Sys2Proof.Machine

variable {s t : State} {i : Instr}

/-! ### The error codes -/

/-- The code a command ends with is OK, or one of its own row of R191. -/
theorem Effect.err_cases (h : Effect s i t) :
    t.err = 0 ∨ ((i = .build ∨ i = .encode) ∧ (t.err = 2 ∨ t.err = 3)) ∨ (i = .finalize ∧ t.err = 5) ∨
      (i = .crcPayload ∧ t.err = 6) ∨ ((i = .scan ∨ i = .capture) ∧ (t.err = 6 ∨ t.err = 7)) := by
  cases h with
  | buildBadAction => exact .inr (.inl ⟨.inl rfl, .inl rfl⟩)
  | buildBadMask => exact .inr (.inl ⟨.inl rfl, .inr rfl⟩)
  | encodeBadAction => exact .inr (.inl ⟨.inr rfl, .inl rfl⟩)
  | encodeBadMask => exact .inr (.inl ⟨.inr rfl, .inr rfl⟩)
  | finalizeOverflow => exact .inr (.inr (.inl ⟨rfl, rfl⟩))
  | crcPayloadBadLen => exact .inr (.inr (.inr (.inl ⟨rfl, rfl⟩)))
  | scanBadLen => exact .inr (.inr (.inr (.inr ⟨.inl rfl, .inl rfl⟩)))
  | scanWrongState => exact .inr (.inr (.inr (.inr ⟨.inl rfl, .inr rfl⟩)))
  | captureBadLen => exact .inr (.inr (.inr (.inr ⟨.inr rfl, .inl rfl⟩)))
  | captureWrongState => exact .inr (.inr (.inr (.inr ⟨.inr rfl, .inr rfl⟩)))
  | build _ a => exact .inl (buildAction_err s a)
  | _ => exact .inl rfl

/-- Settles O46: `exec` answers what the command leaves, and its code is that of its case. -/
theorem commandsEndWithTheirOwnCodes : Obligations.CommandsEndWithTheirOwnCodes :=
  fun i s => ⟨commandState i s, exec_eq i s, (commandState_effect i s).err_cases⟩

/-! ### The registers a command leaves alone -/

/-- The fields that belong to the host: no case of a command writes one. -/
theorem Effect.host_unchanged (h : Effect s i t) :
    t.ident = s.ident ∧ t.mask = s.mask ∧ t.action = s.action ∧ t.crcIn = s.crcIn ∧ t.rxbuf = s.rxbuf ∧
      t.rxlen = s.rxlen ∧ t.cfg = s.cfg ∧ t.bus = s.bus ∧ t.observed = s.observed := by
  cases h <;> simp

/-- Settles O47: no case of a command writes a field of the host. -/
theorem commandsLeaveTheHostsRegisters : Obligations.CommandsLeaveTheHostsRegisters :=
  fun _ _ _ h => (exec_cases h).host_unchanged

theorem Effect.crc_unchanged (h : Effect s i t) (h0 : i ≠ .crcInit) (h1 : i ≠ .crcUpdate) (h2 : i ≠ .crcPayload) :
    t.crc = s.crc := by
  cases h with
  | crcInit => exact absurd rfl h0
  | crcUpdate => exact absurd rfl h1
  | crcPayload => exact absurd rfl h2
  | _ => rfl

theorem Effect.payload_unchanged (h : Effect s i t) (h0 : i ≠ .build) (h1 : i ≠ .encode) :
    t.payload = s.payload ∧ t.plen = s.plen ∧ t.lastNonce = s.lastNonce ∧ t.lastRand = s.lastRand := by
  cases h with
  | build => exact absurd rfl h0
  | encode => exact absurd rfl h1
  | _ => exact ⟨rfl, rfl, rfl, rfl⟩

theorem Effect.frame_unchanged (h : Effect s i t) (h0 : i ≠ .finalize) (h1 : i ≠ .encode) :
    t.frame = s.frame ∧ t.frameValid = s.frameValid := by
  cases h with
  | finalize => exact absurd rfl h0
  | encode => exact absurd rfl h1
  | _ => exact ⟨rfl, rfl⟩

theorem Effect.learner_unchanged (h : Effect s i t) (h0 : i ≠ .learnStart) (h1 : i ≠ .scan) (h2 : i ≠ .capture) :
    t.lid = s.lid ∧ t.prefixValid = s.prefixValid ∧ t.fullValid = s.fullValid ∧ t.syncPos = s.syncPos := by
  cases h with
  | learnStart => exact absurd rfl h0
  | scanMatch => exact absurd rfl h1
  | capture => exact absurd rfl h2
  | _ => exact ⟨rfl, rfl, rfl, rfl⟩

/-- Settles O48: one lemma a unit. -/
theorem unitsWriteTheirOwnRegistersOnly : Obligations.UnitsWriteTheirOwnRegistersOnly :=
  fun _ _ _ h => ⟨(exec_cases h).crc_unchanged, (exec_cases h).payload_unchanged, (exec_cases h).frame_unchanged,
    (exec_cases h).learner_unchanged⟩

/-! ### Draws -/

/-- Settles O34: of the cases of all commands, the BUILD and the ENCODE that pass validation take two draws. -/
theorem drawsAreTakenByBuildsOnly : Obligations.DrawsAreTakenByBuildsOnly := by
  intro i s t ht
  cases exec_cases ht with
  | build _ a => exact .inl ⟨.inl rfl, rfl, rfl, rfl, rfl, rfl⟩
  | encode _ a => exact .inl ⟨.inr rfl, rfl, rfl, rfl, rfl, rfl⟩
  | buildBadAction | buildBadMask | encodeBadAction | encodeBadMask =>
    exact .inr ⟨by simp [ErrCode.code], rfl, rfl, rfl, rfl⟩
  | _ => exact .inr ⟨by simp, rfl, rfl, rfl, rfl⟩

/-! ### Bad operands -/

/-- MASK[7:6] is clear exactly where the mask is below 64 (R75). -/
theorem mask_high_eq_zero_iff (m : Byte) : m.extractLsb' 6 2 = 0 ↔ m.toNat < 64 := by
  rw [← maskInvalid_eq_false_iff]
  simp [maskInvalid]

/-- BUILD and ENCODE run one validation, and end with its error (R122). -/
theorem exec_of_validateBuild_error {e : ErrCode} (hi : i = .build ∨ i = .encode) (hv : validateBuild s = .error e) :
    exec i s = .next (s.setErr e) := by
  obtain rfl | rfl := hi
  · simp [commandState, buildState, hv]
  · simp [commandState, encodeState, hv]

/-- Settles O21: ACTION and MASK decide the case of the validation. -/
theorem badOperandsOnlySetErr : Obligations.BadOperandsOnlySetErr := by
  intro s i hi
  have hmask := mask_high_eq_zero_iff s.mask
  obtain ⟨h9, hv⟩ | ⟨h9, h64, hv⟩ | ⟨⟨h9, h64⟩, -⟩ := validateBuild_cases s
  · exact ⟨fun _ => exec_of_validateBuild_error hi hv, by omega⟩
  · exact ⟨by omega, fun _ _ => exec_of_validateBuild_error hi hv⟩
  · exact ⟨by omega, fun _ h => absurd (hmask.2 h64) h⟩

/-! ### The step that runs a command -/

/-- Settles O6: the pending CMD write runs the decoded command, and `withFetchWord` puts one in front. -/
theorem stepRunsTheDecodedCommand : Obligations.StepRunsTheDecodedCommand := by
  refine ⟨fun s v i rest hb hd => ?decoded, fun s i => ?placed⟩
  case decoded =>
    rw [step_write_cmd hb, runCommand_command v i _ hd, exec_eq]
    rfl
  case placed =>
    have hbyte : tableByte 8 (encode i).toNat = encode i := by cases i <;> decide
    have hbus : (s.withFetchWord 8 (encode i).toNat).bus = .write 0x00 (encode i) :: s.bus := by
      rw [State.withFetchWord, hbyte]
      rfl
    rw [step_write_cmd hbus, runCommand_command _ i _ (decode_encode i), exec_eq]
    rfl

end Sys2Proof.Machine
end

section
/-!
The invariant of the machine: it holds of every state with the reset values of R41 (10_state.md), every command and
every other transaction keeps it, and so it holds after every run (60_exceptions.md R191, 10_state.md R26 and R30 to R32).
-/

namespace Sys2Proof.Machine

variable {s t : State} {i : Instr}

/-! ### The error codes -/

theorem Effect.errProduced (h : Effect s i t) : t.ErrProduced := by
  rw [State.ErrProduced]
  obtain e | ⟨-, e | e⟩ | ⟨-, e⟩ | ⟨-, e⟩ | ⟨-, e | e⟩ := h.err_cases <;> rw [e] <;> decide

/-! ### The frame -/

theorem finalizeBytes_isFrame (c : Cfg) {xs : List Byte} (h : xs.length ≤ 30) : IsFrame c.preamble (finalizeBytes c xs) :=
  ⟨xs, h, by rw [finalizeBytes_toList c xs h, wireBytes, checksumBytes, List.append_assoc]⟩

/-- A command that writes FRAME writes a finalized frame and sets FRAME_VALID; no other touches either (R26). -/
theorem Effect.frameConsistent (h : Effect s i t) (hs : s.FrameConsistent) : t.FrameConsistent := by
  cases h with
  | encode _ a =>
    have hlen : (buildPayload s.cfg.toCfg (buildInputs s a)).length ≤ 30 := by
      rw [buildPayload_length]
      exact payloadLength_le s.cfg a s.mask
    exact ⟨fun _ => finalizeBytes_isFrame _ hlen, nofun⟩
  | finalize h =>
    have hlen : (bufTake s.payload s.plen.toNat).length ≤ 30 := by
      rw [bufTake_length _ _ (by omega)]
      exact h
    exact ⟨fun _ => finalizeBytes_isFrame _ hlen, nofun⟩
  | build => simpa [State.FrameConsistent] using hs
  | _ => exact hs

/-! ### The learner -/

theorem acceptMatch_learnerConsistent (hs : s.LearnerConsistent) (hl : s.lstate = .searching) {p : Nat} (h2 : 2 ≤ p)
    (h28 : p ≤ 28) : (acceptMatch s p).LearnerConsistent := by
  obtain ⟨-, hprefix, hfull, -, hsearching⟩ := hs
  obtain ⟨-, -, -, hf⟩ := hprefix (hsearching hl)
  have hpos : (BitVec.ofNat 8 p).toNat = p := by
    rw [BitVec.toNat_ofNat]
    omega
  refine ⟨fun _ => ?_, nofun, fun _ => ?_, fun _ => rfl, nofun⟩
  · rw [acceptMatch_syncPos, hpos]
    exact ⟨h2, h28⟩
  · simpa using hfull hf

theorem acceptCapture_learnerConsistent (hs : s.LearnerConsistent) (hl : s.lstate = .capturing) :
    (acceptCapture s).LearnerConsistent := by
  obtain ⟨hpos, -, -, hcapturing, hsearching⟩ := hs
  have hp : s.prefixValid = true := hcapturing hl
  exact ⟨hpos, fun h => by simp [hp] at h, nofun, hcapturing, hsearching⟩

theorem State.LearnerConsistent.setErr (hs : s.LearnerConsistent) (e : ErrCode) : (s.setErr e).LearnerConsistent := hs

/-- The four commands of the learner keep its registers consistent; no other touches them (R30 to R32). -/
theorem Effect.learnerConsistent (h : Effect s i t) (hs : s.LearnerConsistent) : t.LearnerConsistent := by
  cases h with
  | learnStart => exact ⟨nofun, fun _ => ⟨rfl, rfl, rfl, rfl⟩, fun _ => ⟨rfl, rfl⟩, nofun, fun _ => rfl⟩
  | learnCancel =>
    obtain ⟨hpos, hprefix, hfull, -, -⟩ := hs
    exact ⟨hpos, hprefix, hfull, nofun, nofun⟩
  | scanMatch hl hlen p _ h2 hp => exact (acceptMatch_learnerConsistent hs hl h2 (by omega)).setErr _
  | capture hl => exact (acceptCapture_learnerConsistent hs hl).setErr _
  | build | encode | finalize => simpa [State.LearnerConsistent] using hs
  | _ => exact hs

/-! ### Reset, and every transaction -/

theorem State.AtResetValues.inv (h : s.AtResetValues) : s.Inv := by
  obtain ⟨-, -, -, -, -, hframe, hvalid, -, -, -, -, -, -, hlstate, hlid, hprefix, hfull, hpos, herr⟩ := h
  have hlearner : s.LearnerConsistent := by
    simp [State.LearnerConsistent, hlstate, hprefix, hfull, hpos, show s.lid[0] = 0 from hlid 0,
      show s.lid[1] = 0 from hlid 1, show s.lid[2] = 0 from hlid 2, show s.lid[3] = 0 from hlid 3]
  refine ⟨?_, hlearner, fun h => ?_, fun _ => Vector.ext fun n hn => ?_⟩
  · rw [State.ErrProduced, herr]
    decide
  · simp [hvalid] at h
  · rw [Vector.getElem_replicate]
    exact hframe ⟨n, hn⟩

/-- Settles O50: the reset state has the values of R41. -/
theorem invariantHoldsAtReset : Obligations.InvariantHoldsAtReset :=
  reset_atResetValues.inv

theorem Effect.inv (h : Effect s i t) (hs : s.Inv) : t.Inv := by
  obtain ⟨-, hlearner, hframe⟩ := hs
  exact ⟨h.errProduced, h.learnerConsistent hlearner, h.frameConsistent hframe⟩

/-- No register the host can write is one the invariant speaks of. -/
theorem State.Inv.writeLoc (hs : s.Inv) (v : Byte) (l : Loc) : (s.writeLoc v l).Inv := by
  cases l <;> exact hs

theorem transact_keeps_inv {op : BusOp} (hs : s.Inv) (h : transact op s = .next t) : t.Inv := by
  obtain ⟨a, -, e⟩ | ⟨a, v, -, -, e⟩ | ⟨i, -, e⟩ | ⟨v, -, -, e⟩ | ⟨-, e⟩ := transact_cases op s <;>
    obtain rfl := Host.Outcome.next.inj (e.symm.trans h)
  · exact hs
  · exact hs.writeLoc v (locOf a)
  · exact (commandState_effect i s).inv hs
  · obtain ⟨-, hregisters⟩ := hs
    exact ⟨by simp [State.ErrProduced, producedCodes, ErrCode.code], hregisters⟩
  · exact State.AtResetValues.inv reset_atResetValues

/-- Settles O51: a step does nothing or takes a transaction, and each transaction keeps the invariant. -/
theorem everyStepKeepsTheInvariant : Obligations.EveryStepKeepsTheInvariant := by
  intro s t hs h
  obtain ⟨-, e⟩ | ⟨op, rest, -, e⟩ := step_cases s
  · obtain rfl := Host.Outcome.next.inj (e.symm.trans h)
    exact hs
  · have hrest : (s.withBus rest).Inv := hs
    exact transact_keeps_inv hrest (e.symm.trans h)

end Sys2Proof.Machine
end

section
/-!
Runs (70_reset_and_hazards.md R219) and the bus between two transactions: a run takes one pending transaction a step and
keeps the invariant, its reads leave no trace but what they observed (20_memory.md R61), and a read returns what the
latest write left (R63).
-/

namespace Sys2Proof.Machine

variable {s t : State} {op : BusOp}

/-! ### Runs -/

theorem run_succ_of_step (h : step s = .next t) (n : Nat) :
    Host.Core.run Sys2Proof.core (n + 1) s = Host.Core.run Sys2Proof.core n t := by
  have hstep : Sys2Proof.core.step s = .next t := h
  simp only [Host.Core.run, hstep]

/-- How many values a list of transactions observes. -/
def readCount (ops : List BusOp) : Nat := (ops.filter fun op => !op.isNotRead).length

theorem transact_host_fields (op : BusOp) (s : State) :
    ∃ t, transact op s = .next t ∧ t.bus = s.bus ∧ t.cfg = s.cfg ∧
      t.observed.length = s.observed.length + readCount [op] := by
  obtain ⟨a, rfl, e⟩ | ⟨a, v, rfl, -, e⟩ | ⟨i, rfl, e⟩ | ⟨v, rfl, -, e⟩ | ⟨rfl, e⟩ := transact_cases op s
  · exact ⟨_, e, rfl, rfl, by simp [readCount, BusOp.isNotRead]⟩
  · have hhost :
        (s.busWrite a v).bus = s.bus ∧ (s.busWrite a v).cfg = s.cfg ∧ (s.busWrite a v).observed = s.observed := by
      rw [State.busWrite]
      cases locOf a <;> exact ⟨rfl, rfl, rfl⟩
    obtain ⟨hbus, hcfg, hobserved⟩ := hhost
    exact ⟨_, e, hbus, hcfg, by rw [hobserved]; rfl⟩
  · obtain ⟨-, -, -, -, -, -, hcfg, hbus, hobserved⟩ := (commandState_effect i s).host_unchanged
    exact ⟨_, e, hbus, hcfg, by rw [hobserved]; rfl⟩
  · exact ⟨_, e, rfl, rfl, rfl⟩
  · exact ⟨_, e, rfl, rfl, rfl⟩

theorem step_host_fields (s : State) :
    ∃ t, step s = .next t ∧ t.bus = s.bus.drop 1 ∧ t.cfg = s.cfg ∧
      t.observed.length = s.observed.length + readCount (s.bus.take 1) := by
  obtain ⟨hb, e⟩ | ⟨op, rest, hb, e⟩ := step_cases s
  · exact ⟨s, e, by simp [hb], rfl, by simp [hb, readCount]⟩
  · obtain ⟨t, ht, hbus, hcfg, hobserved⟩ := transact_host_fields op (s.withBus rest)
    exact ⟨t, e.trans ht, by simp [hb, hbus], hcfg, by simpa [hb] using hobserved⟩

theorem readCount_append (xs ys : List BusOp) : readCount (xs ++ ys) = readCount xs + readCount ys := by
  simp [readCount]

/-- Settles O12: by induction on the number of steps. -/
theorem runsTakeOneTransactionAStep : Obligations.RunsTakeOneTransactionAStep := by
  intro n
  induction n with
  | zero => exact fun s => ⟨s, rfl, rfl, rfl, rfl⟩
  | succ n ih =>
    intro s
    obtain ⟨t, hstep, hbus, hcfg, hobserved⟩ := step_host_fields s
    obtain ⟨u, hrun, hbus', hcfg', hobserved'⟩ := ih t
    refine ⟨u, (run_succ_of_step hstep n).trans hrun, ?_, hcfg'.trans hcfg, ?_⟩
    · rw [hbus', hbus, List.drop_drop, Nat.add_comm]
    · have hcount : readCount (s.bus.take (n + 1)) = readCount (s.bus.take 1) + readCount (t.bus.take n) := by
        rw [hbus, Nat.add_comm n 1, List.take_add, readCount_append]
      simp only [readCount] at hcount hobserved
      omega

/-! ### The invariant along a run -/

theorem safeRun_of_inv (n : Nat) (hs : s.Inv) : SafeRun n s := by
  induction n generalizing s with
  | zero => exact ⟨s, rfl, hs⟩
  | succ n ih =>
    obtain ⟨t, hstep, -⟩ := step_host_fields s
    obtain ⟨u, hrun, hu⟩ := ih (everyStepKeepsTheInvariant s t hs hstep)
    exact ⟨u, (run_succ_of_step hstep n).trans hrun, hu⟩

/-- Settles O52: the start has the reset values whatever the configuration, the transactions and the draws are, and every
step keeps the invariant. -/
theorem everyRunFromResetIsSafe : Obligations.EveryRunFromResetIsSafe := by
  intro n ops ds k c
  have hstart : { State.reset with cfg := c, bus := ops, draws := ds, drawIndex := k }.AtResetValues :=
    reset_atResetValues
  exact safeRun_of_inv n hstart.inv

/-! ### Reads leave no trace -/

/-- The state with other transactions pending and other values observed. -/
def State.withHost (s : State) (ops : List BusOp) (seen : List Byte) : State := { s with bus := ops, observed := seen }

theorem step_withHost_cons (s : State) (op : BusOp) (ops : List BusOp) (seen : List Byte) :
    step (s.withHost (op :: ops) seen) = transact op (s.withHost ops seen) :=
  step_of_bus_cons (s := s.withHost (op :: ops) seen) rfl

section WithHost

variable (s) (ops : List BusOp) (seen : List Byte)

theorem validateBuild_withHost : validateBuild (s.withHost ops seen) = validateBuild s := rfl

theorem finalizeState_withHost : finalizeState (s.withHost ops seen) = (finalizeState s).withHost ops seen := by
  have hplen : (s.withHost ops seen).plen = s.plen := rfl
  rw [finalizeState, finalizeState, hplen]
  split <;> rfl

/-- No command reads or writes what the host has pending or has observed. -/
theorem commandState_withHost (i : Instr) :
    commandState i (s.withHost ops seen) = (commandState i s).withHost ops seen := by
  cases i with
  | build =>
    rw [commandState, commandState, buildState, buildState, validateBuild_withHost]
    split <;> rfl
  | encode =>
    rw [commandState, commandState, encodeState, encodeState, validateBuild_withHost]
    split
    · rfl
    · exact finalizeState_withHost (buildAction s _) ops seen
  | finalize => exact finalizeState_withHost s ops seen
  | crcPayload =>
    have hplen : (s.withHost ops seen).plen = s.plen := rfl
    rw [commandState, commandState, crcPayloadState, crcPayloadState, hplen]
    split <;> rfl
  | scan =>
    have hl : (s.withHost ops seen).lstate = s.lstate := rfl
    have hx : (s.withHost ops seen).rxlen = s.rxlen := rfl
    have hb : (s.withHost ops seen).rxbuf = s.rxbuf := rfl
    rw [commandState, commandState, scanState, scanState, hl, hx, hb]
    split
    · rfl
    · split
      · rfl
      · split <;> rfl
  | capture =>
    have hl : (s.withHost ops seen).lstate = s.lstate := rfl
    have hx : (s.withHost ops seen).rxlen = s.rxlen := rfl
    have hc : (s.withHost ops seen).cfg = s.cfg := rfl
    rw [commandState, commandState, captureState, captureState, hl, hx, hc]
    split
    · rfl
    · split
      · rfl
      · split <;> rfl
  | _ => rfl

theorem writeLoc_withHost (v : Byte) (l : Loc) :
    (s.withHost ops seen).writeLoc v l = (s.writeLoc v l).withHost ops seen := by
  cases l <;> rfl

end WithHost

/-- A transaction that is no read takes the block to one state, whatever is pending or observed. -/
theorem transact_withHost_of_isNotRead (h : op.isNotRead = true) (s : State) :
    ∃ t : State, ∀ ops seen, transact op (s.withHost ops seen) = .next (t.withHost ops seen) := by
  obtain ⟨a, rfl, -⟩ | ⟨a, v, rfl, ha, -⟩ | ⟨i, rfl, -⟩ | ⟨v, rfl, hv, -⟩ | ⟨rfl, -⟩ := transact_cases op s
  · cases h
  · refine ⟨s.busWrite a v, fun ops seen => ?_⟩
    rw [transact, if_neg ha, State.busWrite, writeLoc_withHost]
    rfl
  · refine ⟨commandState i s, fun ops seen => ?_⟩
    rw [transact, if_pos (locOf_addrOf .cmd), runCommand_command _ i _ (decode_encode i), commandState_withHost]
  · refine ⟨s.setErr .illegalCmd, fun ops seen => ?_⟩
    rw [transact, if_pos (locOf_addrOf .cmd), runCommand_illegal v v _ hv]
    rfl
  · exact ⟨s.resetBlock, fun _ _ => rfl⟩

/-- From states that differ in what was observed, a run and the run without its reads end in one state of the block. -/
theorem run_withHost_filter (ops : List BusOp) (s : State) (seen seen' : List Byte) :
    ∃ (u : State) (seen'' : List Byte),
      Host.Core.run Sys2Proof.core ops.length (s.withHost ops seen) = .next (u.withHost [] seen'') ∧
      Host.Core.run Sys2Proof.core (ops.filter BusOp.isNotRead).length (s.withHost (ops.filter BusOp.isNotRead) seen') =
        .next (u.withHost [] seen') := by
  induction ops generalizing s seen seen' with
  | nil => exact ⟨s, seen, rfl, rfl⟩
  | cons op ops ih =>
    by_cases hread : op.isNotRead = true
    · obtain ⟨t, ht⟩ := transact_withHost_of_isNotRead hread s
      obtain ⟨u, seen'', hrun, hrun'⟩ := ih t seen seen'
      rw [List.filter_cons_of_pos hread]
      exact ⟨u, seen'', (run_succ_of_step ((step_withHost_cons s op ops seen).trans (ht ops seen)) _).trans hrun,
        (run_succ_of_step ((step_withHost_cons s op _ seen').trans (ht _ seen')) _).trans hrun'⟩
    · obtain ⟨a, rfl⟩ : ∃ a, op = .read a := by cases op <;> simp_all [BusOp.isNotRead]
      obtain ⟨u, seen'', hrun, hrun'⟩ := ih s (seen ++ [s.busRead a]) seen'
      rw [List.filter_cons_of_neg hread]
      exact ⟨u, seen'', (run_succ_of_step (step_withHost_cons s _ ops seen) _).trans hrun, hrun'⟩

/-- Settles O13: `run_withHost_filter` from the state's own transactions and observed values. -/
theorem readTransactionsAreInvisible : Obligations.ReadTransactionsAreInvisible := by
  intro s
  obtain ⟨u, seen, hrun, hrun'⟩ := run_withHost_filter s.bus s s.observed s.observed
  exact ⟨u.withHost [] seen, u.withHost [] s.observed, hrun, hrun', rfl, rfl⟩

/-! ### A read after a write -/

section ReadWrite

variable (s) (v : Byte)

theorem readLoc_writeLoc_same {l : Loc} (h : l.isRW = true) : (s.writeLoc v l).readLoc l = v := by
  cases l with
  | action | mask | plen | crcIn | rxlen => rfl
  | crcHi => exact crcHiByte_append _ _
  | crcLo => exact crcLoByte_append _ _
  | ident j | payload i | rxbuf i => exact Vector.getElem_set_self _
  | cmd | status | lstat | syncPos | lastNonce | lastRand | lid j | reserved j | frame i => cases h

/-- A write to one location shows at no other; CRC_HI and CRC_LO share a register and keep each other's half. -/
theorem readLoc_writeLoc_of_ne {l l' : Loc} (h : l' ≠ l) : (s.writeLoc v l).readLoc l' = s.readLoc l' := by
  cases l with
  | action => cases l' with | action => exact absurd rfl h | _ => rfl
  | mask => cases l' with | mask => exact absurd rfl h | _ => rfl
  | plen => cases l' with | plen => exact absurd rfl h | _ => rfl
  | crcIn => cases l' with | crcIn => exact absurd rfl h | _ => rfl
  | rxlen => cases l' with | rxlen => exact absurd rfl h | _ => rfl
  | crcHi => cases l' with
    | crcHi => exact absurd rfl h
    | crcLo => exact crcLoByte_append _ _
    | _ => rfl
  | crcLo => cases l' with
    | crcLo => exact absurd rfl h
    | crcHi => exact crcHiByte_append _ _
    | _ => rfl
  | ident j => cases l' with
    | ident j' => exact Vector.getElem_set_ne j.isLt j'.isLt fun hj => h (by rw [Fin.ext hj])
    | _ => rfl
  | payload i => cases l' with
    | payload i' => exact Vector.getElem_set_ne i.isLt i'.isLt fun hi => h (by rw [Fin.ext hi])
    | _ => rfl
  | rxbuf i => cases l' with
    | rxbuf i' => exact Vector.getElem_set_ne i.isLt i'.isLt fun hi => h (by rw [Fin.ext hi])
    | _ => rfl
  | cmd | status | lstat | syncPos | lastNonce | lastRand | lid j | reserved j | frame i => rfl

end ReadWrite

/-- Settles O10: the addresses are locations, and a location that is not RW takes nothing. -/
theorem readAfterWriteOfAnyTwoAddresses : Obligations.ReadAfterWriteOfAnyTwoAddresses := by
  intro s a b v rest hb ha
  obtain ⟨l, rfl⟩ : ∃ l, addrOf l = a := ⟨_, addrOf_locOf a⟩
  obtain ⟨l', rfl⟩ : ∃ l', addrOf l' = b := ⟨_, addrOf_locOf b⟩
  have hl : l ≠ .cmd := fun h => ha (h ▸ rfl)
  refine ⟨_, step_write hl hb, ?_⟩
  have hrest : (s.withBus rest).readLoc l' = s.readLoc l' := by cases l' <;> rfl
  rw [State.busRead_addrOf, State.busRead_addrOf, rwAddress_addrOf]
  split
  next h =>
    obtain ⟨heq, hrw⟩ := h
    obtain rfl : l' = l := by rw [← locOf_addrOf l', heq, locOf_addrOf]
    exact readLoc_writeLoc_same _ v hrw
  next h =>
    by_cases hrw : l.isRW = true
    · have hne : l' ≠ l := fun heq => h ⟨congrArg addrOf heq, hrw⟩
      rw [readLoc_writeLoc_of_ne _ v hne, hrest]
    · rw [State.writeLoc_of_isRW_eq_false _ v (Bool.eq_false_iff.2 hrw), hrest]

end Sys2Proof.Machine
end

section
/-!
The laws of the checksum (40_crc.md R102, R108, R109). All three rest on two facts about one round: it is linear over
xor, and it loses no bit, because the polynomial is odd.
-/

namespace Sys2Proof.Machine

variable (c d : Word16) (b : Byte)

/-! ### One round -/

/-- Rounds add without carry. -/
theorem crcRound_xor : crcRound (c ^^^ d) = crcRound c ^^^ crcRound d := by
  simp only [crcRound, BitVec.getLsbD_xor, BitVec.shiftLeft_xor_distrib]
  cases c.getLsbD 15 <;> cases d.getLsbD 15
  · rfl
  · exact BitVec.xor_assoc _ _ _
  · simp only [Bool.true_bne, Bool.not_false, if_true, Bool.false_eq_true, if_false]
    ac_rfl
  · simp only [bne_self_eq_false, Bool.false_eq_true, if_false, if_true]
    rw [BitVec.xor_comm (d <<< 1), BitVec.xor_assoc, ← BitVec.xor_assoc crcPoly, BitVec.xor_self, BitVec.zero_xor]

/-- Bit 0 of a round's result is the bit shifted out, and the other bits are those shifted up; so only 0 goes to 0. -/
theorem crcRound_eq_zero {c : Word16} (h : crcRound c = 0) : c = 0 := by
  cases htop : c.getLsbD 15 with
  | true =>
    have hbit : (crcRound c).getLsbD 0 = true := by simp [crcRound, htop, crcPoly]
    simp [h] at hbit
  | false =>
    have hshift : c <<< 1 = 0 := by rwa [crcRound, htop, if_neg (by decide)] at h
    refine BitVec.eq_of_getLsbD_eq fun i hi => ?_
    by_cases h15 : i = 15
    · simpa [h15] using htop
    · have hbit := congrArg (fun w : Word16 => w.getLsbD (i + 1)) hshift
      simpa [hi, show i + 1 < 16 by omega] using hbit

theorem crcRound_injective : Function.Injective crcRound := by
  intro c d h
  have hzero : crcRound (c ^^^ d) = 0 := by
    rw [crcRound_xor, h]
    exact BitVec.xor_self
  exact BitVec.xor_eq_zero_iff.1 (crcRound_eq_zero hzero)

/-! ### Eight rounds, and a byte -/

theorem crcRounds_xor : crcRounds (c ^^^ d) = crcRounds c ^^^ crcRounds d := by
  simp only [crcRounds, crcRound_xor]

theorem crcRounds_injective : Function.Injective crcRounds := by
  intro c d h
  simpa only [crcRounds, crcRound_injective.eq_iff] using h

theorem crcRounds_lowByte : crcRounds (b.setWidth 16) = b.setWidth 16 <<< 8 := by
  revert b; decide

/-- A register is its high byte, shifted to its place, and its low byte. -/
theorem word16_eq_xor_bytes : c = ((crcHiByte c).setWidth 16 <<< 8) ^^^ (crcLoByte c).setWidth 16 := by
  refine BitVec.eq_of_getLsbD_eq fun i hi => ?_
  simp only [crcHiByte, crcLoByte, BitVec.getLsbD_xor, BitVec.getLsbD_shiftLeft, BitVec.getLsbD_setWidth,
    BitVec.getLsbD_extractLsb']
  by_cases h8 : i < 8
  · simp [h8, hi]
  · simp [h8, hi, show i - 8 < 8 by omega, show i - 8 < 16 by omega, show 8 + (i - 8) = i by omega]

theorem lowByte_shift : (crcLoByte c).setWidth 16 <<< 8 = c <<< 8 := by
  refine BitVec.eq_of_getLsbD_eq fun i hi => ?_
  simp [crcLoByte, show i - 8 < 8 by omega, show i - 8 < 16 by omega]

theorem crcHiByte_shift : crcHiByte (c <<< 8) = crcLoByte c := by
  refine BitVec.eq_of_getLsbD_eq fun i hi => ?_
  simp [crcLoByte, crcHiByte, hi]
  omega

/-- A byte that enters the register's high end can be read back there. -/
theorem crcHiByte_setWidth_shift : crcHiByte (b.setWidth 16 <<< 8) = b := by
  revert b; decide

theorem crcTable_eq_crcRounds : crcTable b = crcRounds (b.setWidth 16 <<< 8) :=
  congrArg crcRounds BitVec.zero_xor

/-- Settles O17: the high byte meets the data byte and goes through the table, the low byte is only shifted up. -/
theorem crcTableFormEqualsBitForm : Obligations.CrcTableFormEqualsBitForm := by
  intro c b
  have hbytes : c ^^^ (b.setWidth 16 <<< 8) =
      (((crcHiByte c ^^^ b).setWidth 16 <<< 8) : Word16) ^^^ (crcLoByte c).setWidth 16 := by
    conv_lhs => rw [word16_eq_xor_bytes c]
    rw [BitVec.setWidth_xor, BitVec.shiftLeft_xor_distrib]
    ac_rfl
  calc crcStep c b
      = crcRounds ((crcHiByte c ^^^ b).setWidth 16 <<< 8) ^^^ crcRounds ((crcLoByte c).setWidth 16) := by
        rw [crcStep, hbytes, crcRounds_xor]
    _ = crcTable (crcHiByte c ^^^ b) ^^^ c <<< 8 := by
        rw [crcRounds_lowByte, lowByte_shift, crcTable_eq_crcRounds]
    _ = c <<< 8 ^^^ crcTable (crcHiByte c ^^^ b) := BitVec.xor_comm _ _

/-! ### The laws -/

theorem crcTable_zero : crcTable 0#8 = 0#16 := by decide

/-- The register's own high byte cancels it: what is left is the low byte, shifted up. -/
theorem crcStep_crcHiByte : crcStep c (crcHiByte c) = c <<< 8 := by
  rw [crcTableFormEqualsBitForm, show c.extractLsb' 8 8 = crcHiByte c from rfl, BitVec.xor_self, crcTable_zero,
    BitVec.xor_zero]

/-- Settles O18: the two checksum bytes cancel the register one after the other. -/
theorem checksumResidueIsZero : Obligations.ChecksumResidueIsZero := by
  intro xs
  have hgone (c : Word16) : c <<< 8 <<< 8 = 0 := by
    rw [← BitVec.shiftLeft_add]
    simp
  calc crc16 (xs ++ [crcHiByte (crc16 xs), crcLoByte (crc16 xs)])
      = crcStep (crcStep (crc16 xs) (crcHiByte (crc16 xs))) (crcLoByte (crc16 xs)) := by
        simp [crc16, crcFrom]
    _ = crc16 xs <<< 8 <<< 8 := by rw [crcStep_crcHiByte, ← crcHiByte_shift, crcStep_crcHiByte]
    _ = 0 := hgone _

theorem crcStep_left_injective : Function.Injective fun c => crcStep c b := by
  intro c d h
  exact (BitVec.xor_left_inj _).1 (crcRounds_injective h)

theorem crcFrom_injective (xs : List Byte) : Function.Injective fun c => crcFrom c xs := by
  induction xs with
  | nil => exact Function.injective_id
  | cons x xs ih => exact ih.comp (crcStep_left_injective x)

theorem crcStep_right_injective : Function.Injective (crcStep c) := by
  intro a b h
  have hshift : (a.setWidth 16 <<< 8 : Word16) = b.setWidth 16 <<< 8 := (BitVec.xor_right_inj _).1 (crcRounds_injective h)
  rw [← crcHiByte_setWidth_shift a, hshift, crcHiByte_setWidth_shift]

/-- Settles O19: the different bytes leave different registers, and no later byte makes them equal again. -/
theorem singleByteChangeChangesTheChecksum : Obligations.SingleByteChangeChangesTheChecksum := by
  intro pre post a b hab h
  refine hab (crcStep_right_injective (crc16 pre) (crcFrom_injective post ?_))
  simpa [crc16, crcFrom] using h

end Sys2Proof.Machine
end

section
/-!
The operands of a BUILD: the channels of a mask (00_scope.md R14) and the kind of an action (30_encoding.md R73, R74).
-/

namespace Sys2Proof.Machine

variable {m : Byte} {i : Nat}

/-! ### The channels of a mask -/

theorem mem_setBits : i ∈ setBits m ↔ i < 6 ∧ m.getLsbD i = true := by
  have hbits : i ∈ channelBits ↔ i < 6 := by
    simp [channelBits]
    omega
  rw [setBits, List.mem_filter, hbits]

theorem setBits_pairwise (m : Byte) : (setBits m).Pairwise (· < ·) :=
  List.Pairwise.filter _ (by decide)

/-- A channel number is a byte, exactly. -/
theorem channelNumber_toNat (h : i < 6) : (BitVec.ofNat 8 (i + 1)).toNat = i + 1 := by
  rw [BitVec.toNat_ofNat]
  omega

theorem chlist_pairwise (m : Byte) : (chlist m).Pairwise fun a b => a.toNat < b.toNat := by
  rw [chlist, List.pairwise_map]
  refine (setBits_pairwise m).imp_of_mem fun hi hj hij => ?_
  rw [channelNumber_toNat (mem_setBits.1 hi).1, channelNumber_toNat (mem_setBits.1 hj).1]
  omega

theorem channelNumber_mem_chlist (h : i < 6) : BitVec.ofNat 8 (i + 1) ∈ chlist m ↔ m.getLsbD i = true := by
  simp only [chlist, List.mem_map]
  constructor
  · rintro ⟨j, hj, heq⟩
    have hnum := congrArg BitVec.toNat heq
    rw [channelNumber_toNat h, channelNumber_toNat (mem_setBits.1 hj).1] at hnum
    obtain rfl : j = i := by omega
    exact (mem_setBits.1 hj).2
  · exact fun hset => ⟨i, mem_setBits.2 ⟨h, hset⟩, rfl⟩

theorem chlist_bounds {b : Byte} (h : b ∈ chlist m) : 1 ≤ b.toNat ∧ b.toNat ≤ 6 := by
  obtain ⟨i, hi, rfl⟩ := List.mem_map.1 h
  have h6 := (mem_setBits.1 hi).1
  rw [channelNumber_toNat h6]
  omega

/-- The highest set bit is the last of the ascending list. -/
theorem hsb6_eq_some (h : i < 6) (hset : m.getLsbD i = true)
    (hclear : ∀ j, i < j → j < 6 → m.getLsbD j = false) : hsb6 m = some i := by
  have hi : i ∈ setBits m := mem_setBits.2 ⟨h, hset⟩
  cases hlast : (setBits m).getLast? with
  | none => simp [List.getLast?_eq_none_iff.1 hlast] at hi
  | some k =>
    obtain ⟨ks, hks⟩ := List.getLast?_eq_some_iff.1 hlast
    have hk : k ∈ setBits m := List.mem_of_getLast? hlast
    have hle : k ≤ i := by
      by_contra hlt
      obtain ⟨h6, hkset⟩ := mem_setBits.1 hk
      simp [hclear k (by omega) h6] at hkset
    rw [hks, List.mem_append, List.mem_singleton] at hi
    obtain hi | rfl := hi
    · have hpair := setBits_pairwise m
      rw [hks, List.pairwise_append] at hpair
      obtain ⟨-, -, hlt⟩ := hpair
      have := hlt i hi k (by simp)
      omega
    · exact hlast

theorem hsb6_eq_none (h : ∀ i, i < 6 → m.getLsbD i = false) : hsb6 m = none := by
  rw [hsb6, List.getLast?_eq_none_iff, List.eq_nil_iff_forall_not_mem]
  intro i hi
  obtain ⟨h6, hset⟩ := mem_setBits.1 hi
  simp [h i h6] at hset

/-- Settles O20: the list is the set bits' numbers in order, and the highest channel is its last. -/
theorem channelHelpersFollowTheMask : Obligations.ChannelHelpersFollowTheMask :=
  fun m => ⟨chlist_pairwise m, fun _ h => (channelNumber_mem_chlist h).symm, fun _ => chlist_bounds, chlist_length m,
    popcount6_le m, fun _ h hset hclear => by rw [chanHigh, hsb6_eq_some h hset hclear],
    fun h => by rw [chanHigh, hsb6_eq_none h]⟩

/-! ### The kind of an action -/

theorem toNat_eq_index_of_actionOf {v : Byte} {a : BlindAction} (h : actionOf v = some a) : v.toNat = a.index.val := by
  have hlt : v.toNat < 10 := (List.getElem?_eq_some_iff.1 h).1
  unfold actionOf at h
  generalize v.toNat = n at h hlt
  interval_cases n <;> cases h <;> rfl

/-- KIND by the value of ACTION (R74). -/
theorem kind_of_actionOf {v : Byte} {a : BlindAction} (h : actionOf v = some a) :
    (v.toNat ≤ 5 ∧ a.kind = .cmd) ∨ (v = 6 ∧ a.kind = .fav) ∨ (v = 7 ∧ a.kind = .grp) ∨ (v = 8 ∧ a.kind = .grp) ∨
      (v = 9 ∧ a.kind = .dup) := by
  have hv : v = BitVec.ofNat 8 a.index.val := by
    rw [← toNat_eq_index_of_actionOf h]
    simp
  subst hv
  cases a <;> decide

end Sys2Proof.Machine
end

section
/-!
The payload of a BUILD, byte by byte (41_frame_encoder.md R124 to R131): where each template byte goes, for every kind,
and what stands there.
-/

namespace Sys2Proof.Machine

/-! ### Inflation -/

section Inflate

variable {c : Cfg} {m : Byte} {t : List Byte}

/-- The template with its count byte grown. -/
def grownTemplate (c : Cfg) (m : Byte) (t : List Byte) : List Byte :=
  t.modify (c.chIns - 1) fun b => b + BitVec.ofNat 8 (popcount6 m)

theorem inflate_eq (c : Cfg) (m : Byte) (t : List Byte) :
    inflate c m t = (grownTemplate c m t).take c.chIns ++ (chlist m ++ (grownTemplate c m t).drop c.chIns) :=
  List.append_assoc _ _ _

theorem grownTemplate_take_length (h : c.chIns ≤ t.length) : ((grownTemplate c m t).take c.chIns).length = c.chIns := by
  simp [grownTemplate, h]

theorem inflate_getElem?_of_lt {o : Nat} (ho : o < c.chIns) (h : c.chIns ≤ t.length) :
    (inflate c m t)[o]? = (grownTemplate c m t)[o]? := by
  rw [inflate_eq, List.getElem?_append_left (by rwa [grownTemplate_take_length h]), List.getElem?_take_of_lt ho]

theorem inflate_getElem?_add (h : c.chIns ≤ t.length) (j : Nat) :
    (inflate c m t)[c.chIns + j]? = (chlist m ++ (grownTemplate c m t).drop c.chIns)[j]? := by
  have hlen := grownTemplate_take_length (m := m) h
  rw [inflate_eq, List.getElem?_append_right (by omega), hlen, Nat.add_sub_cancel_left]

/-- A byte other than the count byte keeps its value and moves past the channel list where it follows it (R126). -/
theorem inflate_wirePayloadIndex (h : c.chIns ≤ t.length) {o : Nat} (ho : o ≠ c.chIns - 1) :
    (inflate c m t)[wirePayloadIndex c (popcount6 m) o]? = t[o]? := by
  have hkeep : (grownTemplate c m t)[o]? = t[o]? := by
    rw [grownTemplate, List.getElem?_modify_ne _ _ ho.symm]
  rw [wirePayloadIndex]
  split
  next hlt => rw [inflate_getElem?_of_lt hlt h, hkeep]
  next hge =>
    have hlen := chlist_length m
    rw [show o + popcount6 m = c.chIns + (popcount6 m + (o - c.chIns)) by omega, inflate_getElem?_add h,
      List.getElem?_append_right (by omega), List.getElem?_drop, hlen, Nat.add_sub_cancel_left,
      Nat.add_sub_cancel' (by omega), hkeep]

theorem inflate_countByte (h1 : 1 ≤ c.chIns) (h : c.chIns ≤ t.length) :
    (inflate c m t)[c.chIns - 1]? = t[c.chIns - 1]?.map (· + BitVec.ofNat 8 (popcount6 m)) := by
  rw [inflate_getElem?_of_lt (by omega) h, grownTemplate, List.getElem?_modify_eq]
  rfl

theorem inflate_channel (h : c.chIns ≤ t.length) {j : Nat} (hj : j < popcount6 m) :
    (inflate c m t)[c.chIns + j]? = (chlist m)[j]? := by
  rw [inflate_getElem?_add h, List.getElem?_append_left (by rwa [chlist_length])]

end Inflate

/-! ### The payload of every kind -/

/-- The kind's template with its overrides applied (R124). -/
def overriddenTemplate (c : Cfg) (x : BuildInputs) : List Byte :=
  applyOverrides c x (c.kcfg x.act.kind).template (c.kcfg x.act.kind).overrides

theorem buildPayload_of_cmd {c : Cfg} {x : BuildInputs} (h : x.act.kind = .cmd) :
    buildPayload c x = inflate c x.mask (overriddenTemplate c x) := if_pos h

theorem buildPayload_of_ne_cmd {c : Cfg} {x : BuildInputs} (h : x.act.kind ≠ .cmd) :
    buildPayload c x = overriddenTemplate c x := if_neg h

section Payload

variable (w : WfCfg) (x : BuildInputs)

theorem chIns_le_overriddenTemplate_length (h : x.act.kind = .cmd) :
    w.toCfg.chIns ≤ (overriddenTemplate w.toCfg x).length := by
  rw [overriddenTemplate, applyOverrides_length, h]
  exact w.chIns_bounds.2

/-- Every overridden template byte but the count byte stands unchanged at its payload index. -/
theorem buildPayload_payloadIndex {o : Nat} (ho : x.act.kind = .cmd → o ≠ w.toCfg.chIns - 1) :
    (buildPayload w.toCfg x)[payloadIndex w.toCfg x.act.kind (popcount6 x.mask) o]? =
      (overriddenTemplate w.toCfg x)[o]? := by
  rw [payloadIndex]
  split
  next h => rw [buildPayload_of_cmd h, inflate_wirePayloadIndex (chIns_le_overriddenTemplate_length w x h) (ho h)]
  next h => rw [buildPayload_of_ne_cmd h]

theorem buildPayload_override {e : Override} (he : e ∈ (w.toCfg.kcfg x.act.kind).overrides) :
    (buildPayload w.toCfg x)[payloadIndex w.toCfg x.act.kind (popcount6 x.mask) e.offset]? =
      some (selval w.toCfg x e.sel) := by
  have hcount : x.act.kind = .cmd → e.offset ≠ w.toCfg.chIns - 1 := fun h => w.countByte_free (by rwa [h] at he)
  rw [buildPayload_payloadIndex w x hcount]
  exact applyOverrides_overridden _ _ _ _ (w.offsets_nodup _) e he (w.offset_lt _ he)

theorem buildPayload_template {o : Nat} (ho : x.act.kind = .cmd → o ≠ w.toCfg.chIns - 1)
    (hfree : ∀ e ∈ (w.toCfg.kcfg x.act.kind).overrides, e.offset ≠ o) :
    (buildPayload w.toCfg x)[payloadIndex w.toCfg x.act.kind (popcount6 x.mask) o]? =
      (w.toCfg.kcfg x.act.kind).template[o]? := by
  rw [buildPayload_payloadIndex w x ho]
  exact applyOverrides_untouched _ _ _ _ o hfree

theorem buildPayload_countByte (h : x.act.kind = .cmd) :
    (buildPayload w.toCfg x)[w.toCfg.chIns - 1]? =
      w.toCfg.cmd.template[w.toCfg.chIns - 1]?.map (· + BitVec.ofNat 8 (popcount6 x.mask)) := by
  have hfree : (overriddenTemplate w.toCfg x)[w.toCfg.chIns - 1]? = w.toCfg.cmd.template[w.toCfg.chIns - 1]? := by
    rw [overriddenTemplate, h]
    exact applyOverrides_untouched _ _ _ _ _ fun e => w.countByte_free
  rw [buildPayload_of_cmd h, inflate_countByte w.chIns_bounds.1 (chIns_le_overriddenTemplate_length w x h), hfree]

theorem buildPayload_channel (h : x.act.kind = .cmd) {j : Nat} (hj : j < popcount6 x.mask) :
    (buildPayload w.toCfg x)[w.toCfg.chIns + j]? = (chlist x.mask)[j]? := by
  rw [buildPayload_of_cmd h, inflate_channel (chIns_le_overriddenTemplate_length w x h) hj]

end Payload

/-! ### The payload in the state -/

variable {s : State} {a : BlindAction}

theorem exec_build_of_valid (hs : s.ValidOperands) (ha : actionOf s.action = some a) :
    exec .build s = .next (buildAction s a) := by
  obtain ⟨h9, h64⟩ := hs
  obtain ⟨hgt, -⟩ | ⟨-, hgt, -⟩ | ⟨-, b, hb, e⟩ := buildState_cases s
  · omega
  · omega
  · obtain rfl : a = b := Option.some.inj (ha.symm.trans hb)
    rw [exec_eq, commandState, e]

theorem State.ValidOperands.exists_action (hs : s.ValidOperands) : ∃ a, actionOf s.action = some a :=
  actionOf_some_of_le _ hs.1

theorem buildAction_plen_le (s : State) (a : BlindAction) : (buildAction s a).plen.toNat ≤ 30 := by
  rw [buildAction_plen]
  exact payloadLength_le s.cfg a s.mask

theorem bufByte_buildAction {i : Nat} {b : Byte}
    (h : (buildPayload s.cfg.toCfg (buildInputs s a))[i]? = some b) : bufByte (buildAction s a).payload i = b := by
  have hi : i < (buildPayload s.cfg.toCfg (buildInputs s a)).length := (List.getElem?_eq_some_iff.1 h).1
  have hlen := buildAction_plen_le s a
  rw [← buildAction_payload, bufTake_length _ _ (by omega)] at hi
  rw [bufByte_eq_bufTake_getD _ hi, buildAction_payload, List.getD_eq_getElem?_getD, h, Option.getD_some]

/-- The value written for a selector is the one the statements name (R76). -/
theorem selval_buildInputs (ha : actionOf s.action = some a) (sel : Selector) :
    selval s.cfg.toCfg (buildInputs s a) sel =
      s.selectorByte (buildAction s a).lastNonce (buildAction s a).lastRand sel := by
  cases sel with
  | action =>
    have hlt := a.index.isLt
    rw [State.selectorByte, toNat_eq_index_of_actionOf ha, List.getD_eq_getElem?_getD]
    simp [selval, actionCodeOf, buildInputs]
  | _ => rfl

theorem buildAction_override (ha : actionOf s.action = some a) {e : Override}
    (he : e ∈ (s.cfg.toCfg.kcfg a.kind).overrides) :
    bufByte (buildAction s a).payload (payloadIndex s.cfg.toCfg a.kind (popcount6 s.mask) e.offset) =
      s.selectorByte (buildAction s a).lastNonce (buildAction s a).lastRand e.sel := by
  rw [← selval_buildInputs ha]
  exact bufByte_buildAction (buildPayload_override s.cfg (buildInputs s a) he)

theorem buildAction_template {o : Nat} (hlt : o < (s.cfg.toCfg.kcfg a.kind).length)
    (ho : a.kind = .cmd → o ≠ s.cfg.toCfg.chIns - 1) (hfree : ∀ e ∈ (s.cfg.toCfg.kcfg a.kind).overrides, e.offset ≠ o) :
    bufByte (buildAction s a).payload (payloadIndex s.cfg.toCfg a.kind (popcount6 s.mask) o) =
      (s.cfg.toCfg.kcfg a.kind).template.getD o 0x00 := by
  refine bufByte_buildAction ((buildPayload_template s.cfg (buildInputs s a) ho hfree).trans ?_)
  have hlt' : o < (s.cfg.toCfg.kcfg a.kind).template.length := hlt
  simp [buildInputs, List.getD_eq_getElem?_getD, hlt']

/-! ### The statements -/

/-- Settles O22: the action decides the kind, and the bytes past the payload are not overwritten. -/
theorem buildCompletesOnValidOperands : Obligations.BuildCompletesOnValidOperands := by
  intro s hs
  obtain ⟨a, ha⟩ := hs.exists_action
  have hlen := buildPayload_length s.cfg (buildInputs s a)
  refine ⟨buildAction s a, a.kind, exec_build_of_valid hs ha, kind_of_actionOf ha, rfl, buildAction_plen s a,
    buildAction_plen_le s a, fun i hi => ?_⟩
  rw [buildAction_plen] at hi
  exact bufOverwrite_above _ _ _ _ (hlen.trans_le hi)

/-- The Command kind by the value of ACTION. -/
theorem kind_eq_cmd_of_le {v : Byte} (ha : actionOf v = some a) (h : v.toNat ≤ 5) : a.kind = .cmd := by
  obtain ⟨-, hk⟩ | ⟨rfl, -⟩ | ⟨rfl, -⟩ | ⟨rfl, -⟩ | ⟨rfl, -⟩ := kind_of_actionOf ha
  · exact hk
  all_goals simp at h

/-- Settles O23: the wire index of the Command kind is its payload index. -/
theorem commandPayloadLayout : Obligations.CommandPayloadLayout := by
  intro s hs h5
  obtain ⟨a, ha⟩ := hs.exists_action
  have hk : a.kind = .cmd := kind_eq_cmd_of_le ha h5
  have hindex (o : Nat) : wirePayloadIndex s.cfg.toCfg (popcount6 s.mask) o =
      payloadIndex s.cfg.toCfg a.kind (popcount6 s.mask) o := (if_pos hk).symm
  have hcfg : s.cfg.toCfg.cmd = s.cfg.toCfg.kcfg a.kind := by rw [hk, Cfg.kcfg]
  obtain ⟨h1, hle⟩ := s.cfg.chIns_bounds
  refine ⟨buildAction s a, exec_build_of_valid hs ha, fun e he => ?override, fun o hlt ho hfree => ?template, ?count,
    fun j hj => ?channel⟩
  case override =>
    rw [hindex]
    exact buildAction_override ha (hcfg ▸ he)
  case template =>
    rw [hindex, hcfg]
    exact buildAction_template (hcfg ▸ hlt) (fun _ => ho) (hcfg ▸ hfree)
  case count =>
    have hlt : s.cfg.toCfg.chIns - 1 < s.cfg.toCfg.cmd.template.length := by
      rw [KindCfg.length] at hle
      omega
    refine bufByte_buildAction ((buildPayload_countByte s.cfg (buildInputs s a) hk).trans ?_)
    simp [buildInputs, List.getD_eq_getElem?_getD, hlt]
  case channel =>
    refine bufByte_buildAction ((buildPayload_channel s.cfg (buildInputs s a) hk hj).trans ?_)
    have hlt : j < (chlist s.mask).length := by rwa [chlist_length]
    simp [buildInputs, List.getD_eq_getElem?_getD, hlt]

end Sys2Proof.Machine
end

section
/-!
The kinds without inflation, the frame of an ENCODE, and what a BUILD depends on (41_frame_encoder.md R128 to R130, R134,
R135, R138, R140): the mask of a Group through its highest channel, of a Duplicate not at all, and the draws at the NONCE
and RAND offsets alone.
-/

namespace Sys2Proof.Machine

variable {s t t₁ t₂ : State} {a : BlindAction} {m₁ m₂ : Byte}

/-! ### Fixed-length payloads -/

/-- The kind by the value of ACTION, for the kinds that do not inflate. -/
theorem kind_eq_of_fixed {v : Byte} {k : Kind} (ha : actionOf v = some a)
    (h : (v = 6 ∧ k = .fav) ∨ (v = 7 ∧ k = .grp) ∨ (v = 8 ∧ k = .grp) ∨ (v = 9 ∧ k = .dup)) :
    a.kind = k ∧ k ≠ .cmd := by
  obtain ⟨rfl, rfl⟩ | ⟨rfl, rfl⟩ | ⟨rfl, rfl⟩ | ⟨rfl, rfl⟩ := h <;> cases ha <;> exact ⟨rfl, nofun⟩

/-- Settles O24: without inflation a byte's payload index is its offset. -/
theorem fixedLengthPayloadLayout : Obligations.FixedLengthPayloadLayout := by
  intro s k hs hfixed
  obtain ⟨a, ha⟩ := hs.exists_action
  obtain ⟨rfl, hk⟩ := kind_eq_of_fixed ha hfixed
  have hindex (o : Nat) : payloadIndex s.cfg.toCfg a.kind (popcount6 s.mask) o = o := if_neg hk
  refine ⟨buildAction s a, exec_build_of_valid hs ha, ?length, fun e he => ?override, fun o hlt hfree => ?template⟩
  case length => rw [buildAction_plen, payloadLength, if_neg hk, Nat.add_zero]
  case override =>
    have hbyte := buildAction_override ha he
    rwa [hindex] at hbyte
  case template =>
    have hbyte := buildAction_template hlt (fun h => absurd h hk) hfree
    rwa [hindex] at hbyte

/-- Settles O25: the channel byte is `chanHigh` of the empty mask. -/
theorem emptyMaskGroupWritesZeroChannel : Obligations.EmptyMaskGroupWritesZeroChannel := by
  intro s haction hmask
  have hs : s.ValidOperands := by
    refine ⟨?_, by simp [hmask]⟩
    obtain h | h := haction <;> simp [h]
  obtain ⟨a, ha⟩ := hs.exists_action
  have hfixed : (s.action = 6 ∧ Kind.grp = .fav) ∨ (s.action = 7 ∧ Kind.grp = .grp) ∨ (s.action = 8 ∧ Kind.grp = .grp) ∨
      (s.action = 9 ∧ Kind.grp = .dup) := by simpa using haction
  obtain ⟨t, ht, -, hoverride, -⟩ := fixedLengthPayloadLayout s .grp hs hfixed
  obtain rfl := Host.Outcome.next.inj ((exec_build_of_valid hs ha).symm.trans ht)
  refine ⟨_, ht, rfl, fun e he hsel => ?_⟩
  rw [hoverride e he, hsel, State.selectorByte, hmask]
  decide

/-! ### FINALIZE again -/

/-- Settles O27: PLEN, PAYLOAD and the configuration decide what FINALIZE writes, and it writes none of them. -/
theorem finalizeAgainGivesTheSameFrame : Obligations.FinalizeAgainGivesTheSameFrame := by
  intro s t ht
  by_cases hlen : s.plen.toNat ≤ 30
  · obtain rfl := Host.Outcome.next.inj ((exec_finalize_of_le hlen).symm.trans ht)
    refine ⟨exec_finalize_of_le hlen, fun c f u hu _ => ?_⟩
    have hu' := exec_finalize_of_le (s := { s with crc := c, frame := f }) hlen
    exact (Host.Outcome.next.inj (hu'.symm.trans hu)).symm
  · obtain rfl := Host.Outcome.next.inj ((exec_finalize_of_gt (Nat.lt_of_not_le hlen)).symm.trans ht)
    exact ⟨exec_finalize_of_gt (Nat.lt_of_not_le hlen), fun c f u _ h => absurd h hlen⟩

/-! ### ENCODE -/

/-- The state an ENCODE of an action leaves. -/
def encodeAction (s : State) (a : BlindAction) : State :=
  { buildAction s a with
    frame := finalizeBytes s.cfg.toCfg (buildPayload s.cfg.toCfg (buildInputs s a)), frameValid := true, err := 0 }

theorem exec_encode_of_valid (hs : s.ValidOperands) (ha : actionOf s.action = some a) :
    exec .encode s = .next (encodeAction s a) := by
  obtain ⟨h9, h64⟩ := hs
  obtain ⟨hgt, -⟩ | ⟨-, hgt, -⟩ | ⟨-, b, hb, e⟩ := encodeState_cases s
  · omega
  · omega
  · obtain rfl : a = b := Option.some.inj (ha.symm.trans hb)
    rw [exec_eq, commandState, e, finalizeState_buildAction]
    rfl

theorem encodeAction_frameLayout (s : State) (a : BlindAction) :
    FrameLayout s.cfg.toCfg.preamble (buildAction s a).plen.toNat (buildAction s a).payload (encodeAction s a).frame := by
  have hframe := finalizeBytes_frameLayout s.cfg.toCfg (buildAction s a).payload (buildAction_plen_le s a)
  rwa [buildAction_payload] at hframe

/-- Settles O29: FINALIZE of what BUILD left. -/
theorem encodeCompletesOnValidOperands : Obligations.EncodeCompletesOnValidOperands := by
  intro s hs
  obtain ⟨a, ha⟩ := hs.exists_action
  exact ⟨encodeAction s a, exec_encode_of_valid hs ha, rfl, buildAction_plen_le s a, encodeAction_frameLayout s a⟩

/-! ### What the mask changes -/

theorem applyOverrides_congr {c : Cfg} {x y : BuildInputs} (t : List Byte) {ov : List Override}
    (h : ∀ e ∈ ov, selval c x e.sel = selval c y e.sel) : applyOverrides c x t ov = applyOverrides c y t ov := by
  induction ov generalizing t with
  | nil => rfl
  | cons e es ih =>
    have ih' := ih (t.set e.offset (selval c y e.sel)) fun e' h' => h e' (List.mem_cons_of_mem _ h')
    simpa [applyOverrides, h e List.mem_cons_self] using ih'

/-- Only CHAN_HIGH reads the mask. -/
theorem selval_mask {c : Cfg} {x : BuildInputs} (m : Byte) {sel : Selector}
    (h : sel ≠ .chanHigh ∨ chanHigh m = chanHigh x.mask) :
    selval c { x with mask := m } sel = selval c x sel := by
  cases sel with
  | chanHigh => exact h.resolve_left (absurd rfl)
  | _ => rfl

/-- The overridden template of two masks is one where the kind has no CHAN_HIGH entry, or the highest channel is one. -/
theorem overriddenTemplate_mask {c : Cfg} {x : BuildInputs} {m : Byte}
    (h : (c.kcfg x.act.kind).count Selector.isChanHigh = 0 ∨ chanHigh m = chanHigh x.mask) :
    overriddenTemplate c { x with mask := m } = overriddenTemplate c x :=
  applyOverrides_congr _ fun _ he => selval_mask m (h.imp_left fun h => KindCfg.sel_ne_chanHigh h he)

theorem buildAction_mask_congr (hk : a.kind ≠ .cmd)
    (h : (s.cfg.toCfg.kcfg a.kind).count Selector.isChanHigh = 0 ∨ chanHigh m₁ = chanHigh m₂) :
    (buildAction { s with mask := m₁ } a).payload = (buildAction { s with mask := m₂ } a).payload ∧
      (buildAction { s with mask := m₁ } a).plen = (buildAction { s with mask := m₂ } a).plen := by
  have htemplate := overriddenTemplate_mask (x := buildInputs { s with mask := m₂ } a) h
  refine ⟨?payload, BitVec.eq_of_toNat_eq ?plen⟩
  case payload =>
    rw [buildAction_payload_eq, buildAction_payload_eq, buildPayload_of_ne_cmd hk, buildPayload_of_ne_cmd hk]
    exact congrArg (bufOverwrite s.payload) htemplate
  case plen =>
    rw [buildAction_plen, buildAction_plen, payloadLength, payloadLength, if_neg hk, if_neg hk]

/-- What a BUILD leaves whose mask was replaced by a valid one. -/
theorem exec_build_withMask (h9 : s.action.toNat ≤ 9) (ha : actionOf s.action = some a) {m : Byte} (hm : m.toNat < 64)
    (h : exec .build { s with mask := m } = .next t) : t = buildAction { s with mask := m } a :=
  (Host.Outcome.next.inj ((exec_build_of_valid (s := { s with mask := m }) ⟨h9, hm⟩ ha).symm.trans h)).symm

/-- Settles O32: the Duplicate kind has no CHAN_HIGH entry (WF8) and does not inflate. -/
theorem duplicateIgnoresTheChannels : Obligations.DuplicateIgnoresTheChannels := by
  intro s t₁ t₂ m₁ m₂ haction hm₁ hm₂ h₁ h₂
  have ha : actionOf s.action = some .duplicate := by rw [haction]; rfl
  obtain rfl := exec_build_withMask (by simp [haction]) ha hm₁ h₁
  obtain rfl := exec_build_withMask (by simp [haction]) ha hm₂ h₂
  exact buildAction_mask_congr nofun (.inl s.cfg.cmd_dup_chanHigh_count.2)

/-- Settles O33: a Group does not inflate, so the mask shows in its CHAN_HIGH byte alone. -/
theorem groupEncodesOnlyTheHighestChannel : Obligations.GroupEncodesOnlyTheHighestChannel := by
  intro s t₁ t₂ m₁ m₂ haction hm₁ hm₂ hhsb h₁ h₂
  have h9 : s.action.toNat ≤ 9 := by obtain h | h := haction <;> simp [h]
  obtain ⟨a, ha⟩ := actionOf_some_of_le _ h9
  have hk : a.kind ≠ .cmd := by
    obtain ⟨hgrp, -⟩ := kind_eq_of_fixed (k := .grp) ha (by simpa using haction)
    simp [hgrp]
  obtain rfl := exec_build_withMask h9 ha hm₁ h₁
  obtain rfl := exec_build_withMask h9 ha hm₂ h₂
  have hhigh : chanHigh m₁ = chanHigh m₂ := by rw [chanHigh, chanHigh, hhsb]
  obtain ⟨hpayload, hplen⟩ := buildAction_mask_congr hk (.inr hhigh)
  exact ⟨hpayload, hplen, buildAction_err _ a⟩

/-! ### Bytes after the channel list -/

theorem encodeAction_byte_after (hk : a.kind = .cmd) {o : Nat} (hle : s.cfg.toCfg.chIns ≤ o)
    (hlt : o < s.cfg.toCfg.cmd.length) :
    bufByte (encodeAction s a).frame (30 - s.cfg.toCfg.cmd.length + o) =
      (overriddenTemplate s.cfg.toCfg (buildInputs s a)).getD o 0x00 := by
  have hplen : (buildAction s a).plen.toNat = s.cfg.toCfg.cmd.length + popcount6 s.mask := by
    rw [buildAction_plen, payloadLength, if_pos hk, hk, Cfg.kcfg]
  have hle30 := buildAction_plen_le s a
  obtain ⟨-, hpayload, -⟩ := encodeAction_frameLayout s a
  have hwire := hpayload (o + popcount6 s.mask) (by omega)
  have hoffset : 30 - (buildAction s a).plen.toNat + (o + popcount6 s.mask) = 30 - s.cfg.toCfg.cmd.length + o := by omega
  rw [hoffset] at hwire
  have hlen : o < (overriddenTemplate s.cfg.toCfg (buildInputs s a)).length := by
    rw [overriddenTemplate, applyOverrides_length]
    rw [show (buildInputs s a).act.kind = .cmd from hk]
    exact hlt
  have hindex : payloadIndex s.cfg.toCfg a.kind (popcount6 s.mask) o = o + popcount6 s.mask := by
    rw [payloadIndex, if_pos hk, wirePayloadIndex, if_neg (Nat.not_lt.2 hle)]
  have h1 := s.cfg.chIns_bounds.1
  have hbyte := buildPayload_payloadIndex s.cfg (buildInputs s a) (o := o) fun _ => by omega
  rw [hwire, List.getD_eq_getElem?_getD, List.getElem?_eq_getElem hlen, Option.getD_some]
  rw [List.getElem?_eq_getElem hlen] at hbyte
  exact hindex ▸ bufByte_buildAction hbyte

/-- Settles O30: the overridden Command template does not depend on the mask, because the kind has no CHAN_HIGH entry
(WF6). -/
theorem bytesAfterTheChannelListDoNotMove : Obligations.BytesAfterTheChannelListDoNotMove := by
  intro s t₁ t₂ m₁ m₂ h5 hm₁ hm₂ h₁ h₂ o hle hlt
  have h9 : s.action.toNat ≤ 9 := by omega
  obtain ⟨a, ha⟩ := actionOf_some_of_le s.action h9
  have hk : a.kind = .cmd := kind_eq_cmd_of_le ha h5
  have hexec {m : Byte} (hm : m.toNat < 64) := exec_encode_of_valid (s := { s with mask := m }) ⟨h9, hm⟩ ha
  obtain rfl := Host.Outcome.next.inj ((hexec hm₁).symm.trans h₁)
  obtain rfl := Host.Outcome.next.inj ((hexec hm₂).symm.trans h₂)
  have hcount : (s.cfg.toCfg.kcfg a.kind).count Selector.isChanHigh = 0 := hk ▸ s.cfg.cmd_dup_chanHigh_count.1
  have htemplate := overriddenTemplate_mask (x := buildInputs { s with mask := m₂ } a) (m := m₁) (.inl hcount)
  exact (encodeAction_byte_after (s := { s with mask := m₁ }) hk hle hlt).trans
    ((congrArg (·.getD o 0x00) htemplate).trans (encodeAction_byte_after (s := { s with mask := m₂ }) hk hle hlt).symm)

/-! ### Bytes that vary with the draws -/

/-- A payload index is that of a template byte, or of a channel of a Command. -/
theorem payloadIndex_cases (w : WfCfg) (a : BlindAction) (m : Byte) (i : Nat) :
    (∃ o, i = payloadIndex w.toCfg a.kind (popcount6 m) o) ∨
    (a.kind = .cmd ∧ ∃ j, j < popcount6 m ∧ i = w.toCfg.chIns + j) := by
  by_cases hk : a.kind = .cmd
  · simp only [payloadIndex, if_pos hk, wirePayloadIndex]
    by_cases hlow : i < w.toCfg.chIns
    · exact .inl ⟨i, (if_pos hlow).symm⟩
    · by_cases hchannel : i < w.toCfg.chIns + popcount6 m
      · exact .inr ⟨hk, i - w.toCfg.chIns, by omega, by omega⟩
      · exact .inl ⟨i - popcount6 m, by rw [if_neg (by omega)]; omega⟩
  · exact .inl ⟨i, (if_neg hk).symm⟩

/-- The inputs with other draws. -/
def BuildInputs.withDraws (x : BuildInputs) (r0 r1 : Byte) : BuildInputs := { x with r0 := r0, r1 := r1 }

/-- Only NONCE and RAND read the draws. -/
theorem selval_draws {c : Cfg} {x : BuildInputs} (r0 r1 : Byte) {sel : Selector} (hn : sel ≠ .nonce) (hr : sel ≠ .rand) :
    selval c (x.withDraws r0 r1) sel = selval c x sel := by
  cases sel with
  | nonce => exact absurd rfl hn
  | rand => exact absurd rfl hr
  | _ => rfl

section Draws

variable (w : WfCfg) (x : BuildInputs) (r0 r1 : Byte)

/-- The draws do not show in a byte that no entry overrides, the count byte included. -/
theorem buildPayload_free_of_draws {o : Nat} (hfree : ∀ e ∈ (w.toCfg.kcfg x.act.kind).overrides, e.offset ≠ o) :
    (buildPayload w.toCfg (x.withDraws r0 r1))[payloadIndex w.toCfg x.act.kind (popcount6 x.mask) o]? =
      (buildPayload w.toCfg x)[payloadIndex w.toCfg x.act.kind (popcount6 x.mask) o]? := by
  by_cases hcount : x.act.kind = .cmd ∧ o = w.toCfg.chIns - 1
  · obtain ⟨hk, rfl⟩ := hcount
    have h1 := w.chIns_bounds.1
    rw [payloadIndex, if_pos hk, wirePayloadIndex, if_pos (by omega)]
    exact (buildPayload_countByte w (x.withDraws r0 r1) hk).trans (buildPayload_countByte w x hk).symm
  · have ho : x.act.kind = .cmd → o ≠ w.toCfg.chIns - 1 := fun hk heq => hcount ⟨hk, heq⟩
    exact (buildPayload_template w (x.withDraws r0 r1) ho hfree).trans (buildPayload_template w x ho hfree).symm

/-- The draws do not show in an entry that is neither NONCE nor RAND. -/
theorem buildPayload_override_of_draws {e : Override} (he : e ∈ (w.toCfg.kcfg x.act.kind).overrides)
    (hn : e.sel ≠ .nonce) (hr : e.sel ≠ .rand) :
    (buildPayload w.toCfg (x.withDraws r0 r1))[payloadIndex w.toCfg x.act.kind (popcount6 x.mask) e.offset]? =
      (buildPayload w.toCfg x)[payloadIndex w.toCfg x.act.kind (popcount6 x.mask) e.offset]? := by
  rw [buildPayload_override w x he, ← selval_draws r0 r1 hn hr]
  exact buildPayload_override w (x.withDraws r0 r1) he

/-- A payload byte that other draws change is that of a NONCE or RAND entry. -/
theorem buildPayload_ne_of_draws {i : Nat}
    (hne : (buildPayload w.toCfg (x.withDraws r0 r1))[i]? ≠ (buildPayload w.toCfg x)[i]?) :
    ∃ e ∈ (w.toCfg.kcfg x.act.kind).overrides, (e.sel = .nonce ∨ e.sel = .rand) ∧
      i = payloadIndex w.toCfg x.act.kind (popcount6 x.mask) e.offset := by
  obtain ⟨o, rfl⟩ | ⟨hk, j, hj, rfl⟩ := payloadIndex_cases w x.act x.mask i
  · by_cases he : ∃ e ∈ (w.toCfg.kcfg x.act.kind).overrides, e.offset = o
    · obtain ⟨e, he, rfl⟩ := he
      refine ⟨e, he, ?_, rfl⟩
      by_contra hsel
      rw [not_or] at hsel
      obtain ⟨hn, hr⟩ := hsel
      exact hne (buildPayload_override_of_draws w x r0 r1 he hn hr)
    · exact absurd (buildPayload_free_of_draws w x r0 r1 fun e h h' => he ⟨e, h, h'⟩) hne
  · have hchannel := buildPayload_channel w (x.withDraws r0 r1) hk hj
    exact absurd (hchannel.trans (buildPayload_channel w x hk hj).symm) hne

end Draws

theorem bufByte_buildAction_eq {i : Nat} (hi : i < 32) :
    bufByte (buildAction s a).payload i =
      (buildPayload s.cfg.toCfg (buildInputs s a))[i]?.getD (bufByte s.payload i) := by
  rw [bufByte_eq _ _ hi, bufByte_eq _ _ hi, buildAction_payload_eq, bufOverwrite_getElem, List.getD_eq_getElem?_getD]

/-- Two states that differ in their draws alone build payloads that differ at NONCE and RAND entries alone. -/
theorem buildAction_payload_ne {s' : State} {r0 r1 : Byte}
    (hinputs : buildInputs s' a = (buildInputs s a).withDraws r0 r1)
    (hcfg : s'.cfg = s.cfg) (hpayload : s'.payload = s.payload) {i : Nat} (hi : i < 32)
    (hne : bufByte (buildAction s' a).payload i ≠ bufByte (buildAction s a).payload i) :
    ∃ e ∈ (s.cfg.toCfg.kcfg a.kind).overrides, (e.sel = .nonce ∨ e.sel = .rand) ∧
      i = payloadIndex s.cfg.toCfg a.kind (popcount6 s.mask) e.offset := by
  rw [bufByte_buildAction_eq hi, bufByte_buildAction_eq hi, hcfg, hpayload, hinputs] at hne
  exact buildPayload_ne_of_draws s.cfg (buildInputs s a) r0 r1 fun heq => hne (by rw [heq])

theorem buildAction_plen_congr {s' : State} (hcfg : s'.cfg = s.cfg) (hmask : s'.mask = s.mask) :
    (buildAction s' a).plen = (buildAction s a).plen := by
  refine BitVec.eq_of_toNat_eq ?_
  rw [buildAction_plen, buildAction_plen, hcfg, hmask]

/-- Settles O31: the two BUILDs have the same inputs but the draws, which LAST_NONCE and LAST_RAND show. -/
theorem onlyDrawnBytesVary : Obligations.OnlyDrawnBytesVary := by
  intro s t₁ t₂ d₁ d₂ n₁ n₂ a hs ha h₁ h₂
  have hexec (d : List Byte) (n : Nat) := exec_build_of_valid (s := { s with draws := d, drawIndex := n }) hs ha
  obtain rfl := Host.Outcome.next.inj ((hexec d₁ n₁).symm.trans h₁)
  obtain rfl := Host.Outcome.next.inj ((hexec d₂ n₂).symm.trans h₂)
  refine ⟨buildAction_plen_congr rfl rfl, fun i hi hne => ?varies, fun hn hr => ?equal⟩
  case varies =>
    have hinputs : buildInputs { s with draws := d₁, drawIndex := n₁ } a =
      (buildInputs { s with draws := d₂, drawIndex := n₂ } a).withDraws _ _ := rfl
    exact buildAction_payload_ne (s := { s with draws := d₂, drawIndex := n₂ }) hinputs rfl rfl hi hne
  case equal =>
    have hinputs : buildInputs { s with draws := d₁, drawIndex := n₁ } a =
        buildInputs { s with draws := d₂, drawIndex := n₂ } a := by
      rw [buildAction_lastNonce, buildAction_lastNonce] at hn
      rw [buildAction_lastRand, buildAction_lastRand] at hr
      rw [buildInputs, buildInputs, hn, hr]
    rw [buildAction_payload_eq, buildAction_payload_eq, hinputs]

end Sys2Proof.Machine
end

section
/-!
The laws of the matcher (42_sync_matcher.md R162, R165, R167, R168). One equation says what the scan does with a byte:
it accepts, or it goes on with the next counter.
-/

namespace Sys2Proof.Machine

variable {s t : State}

/-! ### One byte of the scan -/

/-- The counter after a byte at which the scan does not accept (R162). -/
def nextCount (cnt : Nat) (b : Byte) : Nat := if syncPat[cnt]? = some b ∧ cnt + 1 ≠ 4 then cnt + 1 else 0

theorem scanFrom_cons (b : Byte) (bs : List Byte) (i cnt : Nat) :
    scanFrom (b :: bs) i cnt =
      if syncPat[cnt]? = some b ∧ cnt + 1 = 4 ∧ 2 ≤ i - 3 then some (i - 3)
      else scanFrom bs (i + 1) (nextCount cnt b) := by
  by_cases hb : syncPat[cnt]? = some b <;> by_cases h4 : cnt + 1 = 4 <;> simp [scanFrom, nextCount, hb, h4]

theorem nextCount_lt {cnt : Nat} {b : Byte} (h : cnt < 4) : nextCount cnt b < 4 := by
  rw [nextCount]
  split <;> omega

/-- The bytes counted are a beginning of the pattern. -/
theorem exists_append_take_nextCount (xs : List Byte) (cnt : Nat) (b : Byte) :
    ∃ l, xs ++ syncPat.take cnt ++ [b] = l ++ syncPat.take (nextCount cnt b) := by
  rw [nextCount]
  split
  next h =>
    obtain ⟨hb, -⟩ := h
    exact ⟨xs, by rw [List.take_add_one, hb, List.append_assoc]; rfl⟩
  next => exact ⟨_, (List.append_nil _).symm⟩

/-! ### An accepted match is the pattern -/

/-- From a point whose last `cnt` bytes are counted, the scan accepts only where the whole pattern stands. -/
theorem scanFrom_eq_some_pattern {bs l : List Byte} {i cnt p : Nat} (hcnt : cnt < 4) (hi : i = l.length + cnt)
    (h : scanFrom bs i cnt = some p) : ∃ l' r, l ++ syncPat.take cnt ++ bs = l' ++ syncPat ++ r ∧ l'.length = p := by
  induction bs generalizing l i cnt with
  | nil => simp [scanFrom] at h
  | cons b bs ih =>
    rw [scanFrom_cons] at h
    rw [← List.singleton_append, ← List.append_assoc]
    split at h
    next hacc =>
      obtain ⟨hb, h4, -⟩ := hacc
      obtain rfl : cnt = 3 := by omega
      obtain rfl : 0x05 = b := Option.some.inj hb
      refine ⟨l, bs, by simp [syncPat], ?_⟩
      have := Option.some.inj h
      omega
    next =>
      obtain ⟨l', hl'⟩ := exists_append_take_nextCount l cnt b
      have hlen := congrArg List.length hl'
      rw [hl']
      refine ih (nextCount_lt hcnt) ?_ h
      have hlt := nextCount_lt (b := b) hcnt
      simp only [List.length_append, List.length_take, List.length_cons, List.length_nil, syncPat] at hlen
      omega

theorem scanStream_eq_some_pattern {b : List Byte} {p : Nat} (h : scanStream b = some p) :
    ∃ l r, b = l ++ syncPat ++ r ∧ l.length = p :=
  scanFrom_eq_some_pattern (l := []) (cnt := 0) (by decide) rfl h

/-- Settles O38: the stream is cut at SYNC_POS, and its bytes are those of RXBUF. -/
theorem acceptedMatchIsThePattern : Obligations.AcceptedMatchIsThePattern := by
  intro s t ht hcapturing hs
  obtain ⟨-, -, p, hlen, hscan, hpos, hlid0, hlid1⟩ | ⟨-, heq⟩ := (exec_cases ht).scan_from_searching hs
  · obtain ⟨h2, -, hend⟩ := scanFrom_bounds _ _ _ _ hscan
    rw [bufTake_length _ _ hlen, Nat.zero_add] at hend
    obtain ⟨l, r, hstream, rfl⟩ := scanStream_eq_some_pattern hscan
    have hbyte {j : Nat} (hj : j < 4) : bufByte s.rxbuf (l.length + j) = syncPat.getD j 0x00 := by
      rw [bufByte_eq_bufTake_getD s.rxbuf (show l.length + j < s.rxlen.toNat by omega), hstream, List.append_assoc,
        List.getD_append_right _ _ _ _ (by omega), Nat.add_sub_cancel_left, List.getD_append _ _ _ _ hj]
    rw [hpos]
    exact ⟨h2, hend, by omega, hbyte (j := 0) (by decide), hbyte (j := 1) (by decide), hbyte (j := 2) (by decide),
      hbyte (j := 3) (by decide), hlid0, hlid1⟩
  · rw [heq] at hcapturing
    simp [hs] at hcapturing

/-! ### What the scan reads -/

/-- What follows an accepted match is not read. -/
theorem scanFrom_append {bs : List Byte} (c : List Byte) {i cnt p : Nat} (h : scanFrom bs i cnt = some p) :
    scanFrom (bs ++ c) i cnt = some p := by
  induction bs generalizing i cnt with
  | nil => simp [scanFrom] at h
  | cons b bs ih =>
    rw [scanFrom_cons] at h
    rw [List.cons_append, scanFrom_cons]
    split at h
    next hacc => rw [if_pos hacc, h]
    next hacc => rw [if_neg hacc, ih h]

/-- The bytes up to the pattern's last one decide an accepted match. -/
theorem scanFrom_take {bs : List Byte} {i cnt p : Nat} (h : scanFrom bs i cnt = some p) :
    scanFrom (bs.take (p + 4 - i)) i cnt = some p := by
  induction bs generalizing i cnt with
  | nil => simp [scanFrom] at h
  | cons b bs ih =>
    obtain ⟨-, hi, -⟩ := scanFrom_bounds _ _ _ _ h
    rw [scanFrom_cons] at h
    rw [show p + 4 - i = p + 4 - (i + 1) + 1 by omega, List.take_succ_cons, scanFrom_cons]
    split at h
    next hacc => rw [if_pos hacc, h]
    next hacc => rw [if_neg hacc, ih h]

/-- Settles O39: an accepted match needs its bytes and no more (`scanFrom_take`), and a match in a shorter beginning would
be one of the whole stream. -/
theorem scanReadsNothingAfterTheMatch : Obligations.ScanReadsNothingAfterTheMatch := by
  intro b c p h
  refine ⟨scanFrom_append c (scanFrom_take h), fun n hn => ?_⟩
  cases hshort : scanStream (b.take n) with
  | none => rfl
  | some q =>
    obtain ⟨-, -, hend⟩ := scanFrom_bounds _ _ _ _ hshort
    have hwhole : scanStream b = some q := by
      have happend := scanFrom_append (b.drop n) hshort
      rwa [List.take_append_drop] at happend
    obtain rfl : p = q := Option.some.inj (h.symm.trans hwhole)
    rw [List.length_take] at hend
    omega

/-! ### Clean and broken streams -/

/-- Bytes other than 0xC0 leave the counter at 0. -/
theorem scanFrom_clean_append {pre : List Byte} (h : ∀ b ∈ pre, b ≠ 0xC0) (rest : List Byte) (i : Nat) :
    scanFrom (pre ++ rest) i 0 = scanFrom rest (i + pre.length) 0 := by
  induction pre generalizing i with
  | nil => rfl
  | cons b pre ih =>
    rw [List.forall_mem_cons] at h
    obtain ⟨hb, hpre⟩ := h
    have hmiss : syncPat[0]? ≠ some b := fun heq => hb (Option.some.inj heq).symm
    rw [List.cons_append, scanFrom_cons, if_neg fun hacc => hmiss hacc.1, nextCount,
      if_neg fun hacc => hmiss hacc.1, ih hpre, List.length_cons, Nat.add_right_comm, Nat.add_assoc]

theorem scanFrom_clean {post : List Byte} (h : ∀ b ∈ post, b ≠ 0xC0) (i : Nat) : scanFrom post i 0 = none := by
  have hend := scanFrom_clean_append h [] i
  rwa [List.append_nil] at hend

theorem scanFrom_syncPat_append {i : Nat} (h : 2 ≤ i) (post : List Byte) :
    scanFrom ([0xC0, 0x11, 0x00, 0x05] ++ post) i 0 = some i := by
  simp [scanFrom, syncPat, h]

/-- Settles O40: up to the pattern the counter is back at 0, because nothing was counted or because the last byte closes
what was (`scanFrom_append_closed`). -/
theorem scanFindsACleanPattern : Obligations.ScanFindsACleanPattern := by
  refine ⟨fun pre post hlen hclean => ?_, fun pre post b hlen hnone h1 h2 h3 => ?_⟩
  · rw [scanStream, List.append_assoc, scanFrom_clean_append hclean, Nat.zero_add, scanFrom_syncPat_append hlen]
  · rw [scanStream, List.append_assoc (pre ++ [b]), scanFrom_append_closed pre b ⟨h1, h2, h3⟩ _ 0 0 (by decide) hnone,
      Nat.zero_add, scanFrom_syncPat_append (by omega)]

/-- The 0xC0 that breaks a partial match is not counted, so the rest of the pattern counts nothing (R168). -/
theorem scanFrom_part_syncPat {part : List Byte} (h : part = [0xC0] ∨ part = [0xC0, 0x11] ∨ part = [0xC0, 0x11, 0x00])
    (post : List Byte) (i : Nat) :
    scanFrom (part ++ [0xC0, 0x11, 0x00, 0x05] ++ post) i 0 = scanFrom post (i + part.length + 4) 0 := by
  obtain rfl | rfl | rfl := h <;> simp [scanFrom, syncPat]

/-- Settles O41: nothing is counted before the partial match, by the pattern behind it, or after that. -/
theorem patternAfterAPartialMatchIsMissed : Obligations.PatternAfterAPartialMatchIsMissed := by
  intro pre post part hpre hpost hpart
  rw [scanStream, List.append_assoc, List.append_assoc, scanFrom_clean_append hpre, ← List.append_assoc,
    scanFrom_part_syncPat hpart, scanFrom_clean hpost]

end Sys2Proof.Machine
end

section
/-!
The host's pseudo-instructions (30_encoding.md R83): a run of register writes is their fold over the state, LDPAY and LDRX
overwrite the beginning of a buffer, and LOOPBACK is one read and one write for each byte of FRAME.
-/

namespace Sys2Proof.Machine

variable {s : State}

/-! ### Runs of register writes -/

/-- A location and the byte to write there. -/
abbrev RegWrite := Loc × Byte

/-- The transaction of a register write (R81). -/
def RegWrite.op (w : RegWrite) : BusOp := .write (addrOf w.1) w.2

/-- The state after register writes, one after the other. -/
def State.writeAll (s : State) (ws : List RegWrite) : State := ws.foldl (fun s w => s.writeLoc w.2 w.1) s

theorem State.writeAll_append (ws ws' : List RegWrite) : s.writeAll (ws ++ ws') = (s.writeAll ws).writeAll ws' :=
  List.foldl_append

theorem writeAll_withHost (ws : List RegWrite) (ops : List BusOp) (seen : List Byte) :
    (s.withHost ops seen).writeAll ws = (s.writeAll ws).withHost ops seen := by
  induction ws generalizing s with
  | nil => rfl
  | cons w ws ih => exact (congrArg (State.writeAll · ws) (writeLoc_withHost s ops seen w.2 w.1)).trans ih

theorem step_withHost_write {l : Loc} (h : l ≠ .cmd) (v : Byte) (ops : List BusOp) (seen : List Byte) :
    step (s.withHost (.write (addrOf l) v :: ops) seen) = .next ((s.writeLoc v l).withHost ops seen) := by
  rw [step_write h (s := s.withHost (.write (addrOf l) v :: ops) seen) rfl, ← writeLoc_withHost]
  rfl

theorem run_writeAll {ws : List RegWrite} (h : ∀ w ∈ ws, w.1 ≠ .cmd) (rest : List BusOp) (seen : List Byte) :
    Host.Core.run Sys2Proof.core ws.length (s.withHost (ws.map RegWrite.op ++ rest) seen) =
      .next ((s.writeAll ws).withHost rest seen) := by
  induction ws generalizing s with
  | nil => rfl
  | cons w ws ih =>
    rw [List.forall_mem_cons] at h
    obtain ⟨hw, hws⟩ := h
    exact (run_succ_of_step (step_withHost_write hw w.2 _ seen) _).trans (ih hws)

/-! ### Filling a buffer -/

theorem bufOverwrite_toList (b : Buf) {xs : List Byte} (h : xs.length ≤ 32) :
    (bufOverwrite b xs).toList = xs ++ b.toList.drop xs.length := by
  refine List.ext_getElem ?_ fun i h₁ h₂ => ?_
  · simp
    omega
  · have hi : i < 32 := by simpa using h₁
    rw [Vector.getElem_toList, List.getElem_append]
    split
    next hlt => exact bufOverwrite_below b xs i hi hlt
    next hge => rw [bufOverwrite_above b xs i hi (by omega)]; simp [Nat.add_sub_cancel' (Nat.not_lt.1 hge)]

theorem bufOverwrite_concat (b : Buf) (xs : List Byte) (x : Byte) (h : xs.length < 32) :
    bufOverwrite b (xs ++ [x]) = (bufOverwrite b xs).set xs.length x := by
  refine Vector.ext fun i hi => ?_
  rw [Vector.getElem_set]
  obtain hlt | rfl | hgt := Nat.lt_trichotomy i xs.length
  · rw [if_neg (by omega), bufOverwrite_below _ _ _ _ hlt, bufOverwrite_below _ _ _ _ (by simp; omega),
      List.getElem_append_left hlt]
  · rw [if_pos rfl, bufOverwrite_below _ _ _ _ (by simp), List.getElem_concat_length rfl]
  · have hlen : (xs ++ [x]).length ≤ i := by
      rw [List.length_append]
      exact hgt
    rw [if_neg (by omega), bufOverwrite_above _ _ _ _ hgt.le, bufOverwrite_above _ _ _ _ hlen]

/-- A list of 32 bytes replaces the whole buffer. -/
theorem bufOverwrite_self (b b' : Buf) : bufOverwrite b b'.toList = b' := by
  refine Vector.ext fun i hi => ?_
  rw [bufOverwrite_below _ _ _ _ (by simpa using hi), Vector.getElem_toList]

/-- The locations `loc` are the bytes of one buffer of the state, which `get` reads and `put` replaces. -/
structure IsBuffer (loc : Fin 32 → Loc) (get : State → Buf) (put : State → Buf → State) : Prop where
  ne_cmd : ∀ i, loc i ≠ .cmd
  write : ∀ (s : State) (i : Fin 32) (v : Byte), s.writeLoc v (loc i) = put s ((get s).set i v)
  get_put : ∀ s b, get (put s b) = b
  put_put : ∀ s b b', put (put s b) b' = put s b'
  put_get : ∀ s, put s (get s) = s

theorem payload_isBuffer : IsBuffer .payload State.payload fun s b => { s with payload := b } :=
  ⟨nofun, fun _ _ _ => rfl, fun _ _ => rfl, fun _ _ _ => rfl, fun _ => rfl⟩

theorem rxbuf_isBuffer : IsBuffer .rxbuf State.rxbuf fun s b => { s with rxbuf := b } :=
  ⟨nofun, fun _ _ _ => rfl, fun _ _ => rfl, fun _ _ _ => rfl, fun _ => rfl⟩

/-- The register writes of a load: the bytes from index 0 on, then their number. -/
def loadWrites (loc : Fin 32 → Loc) (lenLoc : Loc) (xs : List Byte) (h : xs.length ≤ 32) : List RegWrite :=
  (List.ofFn fun i : Fin xs.length => (loc (i.castLE h), xs[i])) ++ [(lenLoc, BitVec.ofNat 8 xs.length)]

theorem loadBuffer_ops (loc : Fin 32 → Loc) (lenLoc : Loc) {xs : List Byte} (h : xs.length ≤ 32) :
    ∃ ys, loadBuffer loc lenLoc xs = some ys ∧ ys.map Stmt.op = (loadWrites loc lenLoc xs h).map RegWrite.op := by
  refine ⟨_, dif_pos h, ?_⟩
  simp only [loadWrites, List.map_append, List.map_ofFn]
  rfl

section Fill

variable {loc : Fin 32 → Loc} {get : State → Buf} {put : State → Buf → State} (hbuf : IsBuffer loc get put)
include hbuf

/-- Writes of bytes from index 0 on overwrite the beginning of the buffer. -/
theorem IsBuffer.writeAll_ofFn {n : Nat} (h : n ≤ 32) (f : Fin n → Byte) (s : State) :
    s.writeAll (List.ofFn fun i => (loc (i.castLE h), f i)) = put s (bufOverwrite (get s) (List.ofFn f)) := by
  induction n with
  | zero =>
    have hnil : bufOverwrite (get s) [] = get s := by simp [bufOverwrite]
    rw [List.ofFn_zero, List.ofFn_zero, hnil, hbuf.put_get]
    rfl
  | succ n ih =>
    rw [List.ofFn_succ_last, List.ofFn_succ_last, State.writeAll_append,
      bufOverwrite_concat _ _ _ (by rw [List.length_ofFn]; exact h)]
    have hfill := ih (Nat.le_of_succ_le h) fun i => f i.castSucc
    have hlast (t : State) : t.writeAll [(loc ((Fin.last n).castLE h), f (Fin.last n))] =
        put t ((get t).set n (f (Fin.last n))) := hbuf.write t _ _
    refine (congrArg (State.writeAll · _) hfill).trans ?_
    rw [hlast, hbuf.get_put, hbuf.put_put]
    congr 2
    exact (List.length_ofFn).symm

/-- Running a load's register writes fills the buffer and sets its length. -/
theorem IsBuffer.run_loadBuffer {lenLoc : Loc} (hlen : lenLoc ≠ .cmd) {xs : List Byte} (h : xs.length ≤ 32) :
    ∃ ys, loadBuffer loc lenLoc xs = some ys ∧ ∀ (s : State) (rest : List BusOp), s.bus = ys.map Stmt.op ++ rest →
      Host.Core.run Sys2Proof.core (xs.length + 1) s =
        .next (((put s (bufOverwrite (get s) xs)).writeLoc (BitVec.ofNat 8 xs.length) lenLoc).withHost
          rest s.observed) := by
  obtain ⟨ys, hload, hops⟩ := loadBuffer_ops loc lenLoc h
  refine ⟨ys, hload, fun s rest hb => ?_⟩
  have hcmd : ∀ w ∈ loadWrites loc lenLoc xs h, w.1 ≠ .cmd := by
    intro w hw
    rw [loadWrites, List.mem_append, List.mem_ofFn', List.mem_singleton] at hw
    obtain ⟨i, rfl⟩ | rfl := hw
    · exact hbuf.ne_cmd _
    · exact hlen
  have hxs : (List.ofFn fun i : Fin xs.length => xs[i]) = xs := List.ofFn_getElem
  have hrun := run_writeAll (s := s) hcmd rest s.observed
  rw [← hops, ← hb, loadWrites, State.writeAll_append, hbuf.writeAll_ofFn h, List.length_append, List.length_ofFn, hxs]
    at hrun
  exact hrun

end Fill

theorem loaded_payload_eq (s : State) (b : Buf) (v : Byte) (rest : List BusOp) :
    (({ s with payload := b } : State).writeLoc v .plen).withHost rest s.observed =
      { s with bus := rest, payload := b, plen := v } := rfl

theorem loaded_rxbuf_eq (s : State) (b : Buf) (v : Byte) (rest : List BusOp) :
    (({ s with rxbuf := b } : State).writeLoc v .rxlen).withHost rest s.observed =
      { s with bus := rest, rxbuf := b, rxlen := v } := rfl

/-- Settles O53: both loads are `run_loadBuffer`, of PAYLOAD with PLEN and of RXBUF with RXLEN. -/
theorem loadPseudosFillTheBuffers : Obligations.LoadPseudosFillTheBuffers := by
  intro xs h
  obtain ⟨ys, hload, hrun⟩ := payload_isBuffer.run_loadBuffer (lenLoc := .plen) nofun h
  obtain ⟨zs, hload', hrun'⟩ := rxbuf_isBuffer.run_loadBuffer (lenLoc := .rxlen) nofun h
  exact ⟨⟨ys, hload, fun s rest hb => ⟨_, (hrun s rest hb).trans (congrArg _ (loaded_payload_eq s _ _ rest)), rfl,
      bufOverwrite_toList _ h⟩⟩,
    ⟨zs, hload', fun s rest hb => ⟨_, (hrun' s rest hb).trans (congrArg _ (loaded_rxbuf_eq s _ _ rest)), rfl,
      bufOverwrite_toList _ h⟩⟩⟩

/-! ### LOOPBACK -/

theorem step_withHost_read (l : Loc) (ops : List BusOp) (seen : List Byte) :
    step (s.withHost (.read (addrOf l) :: ops) seen) = .next (s.withHost ops (seen ++ [s.readLoc l])) := by
  rw [step_read (s := s.withHost (.read (addrOf l) :: ops) seen) rfl, State.busRead_addrOf]
  cases l <;> rfl

/-- The read and the write of each index of a list (R83). -/
def copyStmts (values : Buf) (is : List (Fin 32)) : List Stmt :=
  is.flatMap fun i => [.rd (.frame i), .wr (.rxbuf i) values[i]]

/-- A pass over the indices observes the bytes of FRAME in order and writes them to RXBUF. -/
theorem run_copyStmts (is : List (Fin 32)) (s : State) (rest : List BusOp) (seen : List Byte) (n : Nat) :
    Host.Core.run Sys2Proof.core (2 * is.length + n) (s.withHost ((copyStmts s.frame is).map Stmt.op ++ rest) seen) =
      Host.Core.run Sys2Proof.core n
        ((s.writeAll (is.map fun i => (Loc.rxbuf i, s.frame[i]))).withHost
          rest (seen ++ is.map fun i => s.frame[i])) := by
  induction is generalizing s seen with
  | nil => simp [copyStmts, State.writeAll]
  | cons i is ih =>
    have hread := step_withHost_read (s := s) (.frame i)
      (.write (addrOf (.rxbuf i)) s.frame[i] :: ((copyStmts s.frame is).map Stmt.op ++ rest)) seen
    have hwrite := step_withHost_write (s := s) (l := .rxbuf i) nofun s.frame[i]
      ((copyStmts s.frame is).map Stmt.op ++ rest) (seen ++ [s.frame[i]])
    rw [show 2 * (i :: is).length + n = 2 * is.length + n + 1 + 1 by rw [List.length_cons]; omega]
    refine (run_succ_of_step hread _).trans ((run_succ_of_step hwrite _).trans ?_)
    have htail := ih (s.writeLoc s.frame[i] (.rxbuf i)) (seen ++ [s.frame[i]])
    rw [List.append_assoc] at htail
    exact htail

/-- Settles O54: the pass over all indices, then the write of RXLEN. -/
theorem loopbackDeliversTheFrame : Obligations.LoopbackDeliversTheFrame := by
  intro s rest hb
  have hbytes : (List.finRange 32).map (fun i => s.frame[i]) = s.frame.toList := by
    rw [← List.ofFn_eq_map]
    refine List.ext_getElem (by rw [List.length_ofFn, Vector.length_toList]) fun i _ _ => ?_
    rw [List.getElem_ofFn, Vector.getElem_toList]
    rfl
  have hcopied : s.writeAll ((List.finRange 32).map fun i => (Loc.rxbuf i, s.frame[i])) = { s with rxbuf := s.frame } := by
    rw [← List.ofFn_eq_map]
    refine (rxbuf_isBuffer.writeAll_ofFn le_rfl (fun i => s.frame[i]) s).trans ?_
    rw [List.ofFn_eq_map, hbytes, bufOverwrite_self]
  have hbus : s.bus = (copyStmts s.frame (List.finRange 32)).map Stmt.op ++ (.write (addrOf .rxlen) 32 :: rest) := by
    rw [hb, loopback, List.map_append, List.append_assoc]
    rfl
  have hcopy := run_copyStmts (List.finRange 32) s (.write (addrOf .rxlen) 32 :: rest) s.observed 1
  rw [← hbus, List.length_finRange, hcopied, hbytes] at hcopy
  exact hcopy.trans (run_succ_of_step (step_withHost_write (l := .rxlen) nofun _ _ _) 0)

end Sys2Proof.Machine
end
